-- ==== Sys2Proof/Word.lean ====
section
/-!
DEFINITION. The unit of every space of LMFC is the 8-bit byte (spec/20_memory.md R61); frames, buffers and the
transmit queue are finite sequences of bytes (spec/00_scope.md R11).
-/
namespace Sys2Proof

/-- A byte (R10): bit 7 is the most significant, bit 0 the least. -/
abbrev Byte := BitVec 8

/-- A 7-bit value: the low seven bits of a byte, or a result register (R20). -/
abbrev Val7 := BitVec 7

/-- A finite sequence of bytes, the first at offset 0 (R11). -/
abbrev Bytes := List Byte

end Sys2Proof
end

