-- ==== Sys2Proof/Config.lean ====
section
/-!
DEFINITION. The configuration, an argument of the step relation (spec/00_scope.md R7, R21): the named constants of R7, the
parameters of R8, with the values the spec gives them (each literal once, 93_implementation_defined.md U17), the two
fixed numbers of D1 and R165, and the free values of RESET (spec/70_reset_and_hazards.md R320, R321).
-/
namespace Sys2Proof

/-- The sense of the parity bit: false is the plain exclusive or (D1, U10); fixed at false. [log 15] -/
def PAR_INVERT : Bool := false
/-- The greatest operand of the digit-pair encoding and of ISSUE_COUNT (R165, R205). -/
def COUNT_MAX : Nat := 99

/-- PROTSEL (R26); the fourth code is reserved and unreachable, so it is no constructor (U14). -/
inductive ProtSel where
  | psNone | psInit | psCount
deriving DecidableEq, Repr, Inhabited

/-- The command kinds K_INIT and K_COUNT of PEND_KIND and RES_KIND (R31, R35). -/
inductive Kind where
  | kInit | kCount
deriving DecidableEq, Repr, Inhabited

/-- The configuration. The fields down to `txCopies` are the constants of R7, the others the parameters of R8; INIT_LEN and
COUNT_LEN of R7 are derived from the layouts (Machine/Operands.lean). [log 1, log 15, log 23] -/
structure Config where
  /-- TERM: the frame terminator byte (R92). -/
  term : Byte
  /-- ERRMARK: the device error marker at frame offset 0 (R106). -/
  errmark : Byte
  /-- CMD_OP: first byte of every command frame (R97). -/
  cmdOp : Byte
  /-- INIT_CLASS: second byte of the Initialize command. -/
  initClass : Byte
  /-- INIT_SUB: third byte of the Initialize command. -/
  initSub : Byte
  /-- COUNT_CLASS: second byte of the Count command. -/
  countClass : Byte
  /-- COUNT_SUB: third byte of the Count command. -/
  countSub : Byte
  /-- COUNT_OPTION: option byte of the Count command. -/
  countOption : Byte
  /-- REJECT_THRESHOLD: the value encoded four times as a digit pair in the Count command. -/
  rejectThreshold : Nat
  /-- RETRY_COUNT: the raw byte sent four times in the Count command. -/
  retryCount : Byte
  /-- INIT_RSP_HDR: expected bytes at offsets 1 and 2 of the Initialize response. -/
  initRspHdr : Byte × Byte
  /-- COUNT_RSP_HDR: expected bytes at offsets 1 and 2 of the Count response. -/
  countRspHdr : Byte × Byte
  /-- OFF_ACC1: offset of the digit pair dispensed-pocket-1. -/
  offAcc1 : Nat
  /-- OFF_ACC2: offset of the digit pair dispensed-pocket-2. -/
  offAcc2 : Nat
  /-- OFF_REJ1: offset of the digit pair rejected-pocket-1. -/
  offRej1 : Nat
  /-- OFF_REJ2: offset of the digit pair rejected-pocket-2. -/
  offRej2 : Nat
  /-- TX_COPIES: times a command is transmitted on entering AwaitingResponse (R203). -/
  txCopies : Nat
  /-- FRAME_MAX: the largest frame, terminator included (R8, D8). -/
  frameMax : Nat
  /-- PROTMAP: the pairs (sel, off) at which it is true (R8, D2). Offsets are below FRAME_MAX, so every PROTMAP is such a list. -/
  protMap : List (ProtSel × Nat)
  /-- FIELD_BASE: the frame offset that payload offset 0 means (R8, D4). -/
  fieldBase : Nat
  /-- DIGIT_BASE: the character code of the digit "0" (R8; general knowledge G1 of 93_implementation_defined.md). -/
  digitBase : Val7
deriving DecidableEq, Repr

/-- The default PROTMAP (R8): under PS_COUNT, both bytes of the digit pair at each of the offsets `offs`. -/
def pairMap (offs : List Nat) : List (ProtSel × Nat) := offs.flatMap fun o => [(.psCount, o), (.psCount, o + 1)]

/-- The spec's values (R7) and defaults (R8, D2, D4, D8). UNVERIFIED, unsafe: the literals are unaudited (U17). [log 15] -/
def Config.default : Config :=
  let a1 := 0x27
  let a2 := 0x29
  let r1 := 0x2F
  let r2 := 0x31
  { term := 0x1C
    errmark := 0xF0
    cmdOp := 0x60
    initClass := 0x02
    initSub := 0x0D
    countClass := 0x03
    countSub := 0x15
    countOption := 0xE4
    rejectThreshold := 4
    retryCount := 0x03
    initRspHdr := (0x02, 0x34)
    countRspHdr := (0x03, 0x99)
    offAcc1 := a1
    offAcc2 := a2
    offRej1 := r1
    offRej2 := r2
    txCopies := 2
    frameMax := 256
    protMap := pairMap [a1, a2, r1, r2]
    fieldBase := 0
    digitBase := 0x30 }

/-- The greatest payload offset of a digit pair of the Count response (R242). [log 23] -/
def Config.lastPair (c : Config) : Nat := max (max c.offAcc1 c.offAcc2) (max c.offRej1 c.offRej2)

/-- The least length of a decodable Count response: all four digit pairs and the terminator, 52 bytes with the spec's offsets (R243). [log 23] -/
def Config.countRspMin (c : Config) : Nat := c.fieldBase + c.lastPair + 3

/-- A free value of RESET: PEND_KIND and RES_KIND are unspecified after it (R320). No body: nothing is known of it. [log 6] -/
opaque Config.freeKind : Nat → Kind

/-- A free value of RESET: ACC1, ACC2, REJ1 and REJ2 are unspecified after it (R320); their range 0 .. 99 is R20's. [log 6] -/
opaque Config.freeCount : Nat → Fin 100

end Sys2Proof
end

