-- ==== Sys2Proof/Syntax.lean ====
section
/-!
DEFINITION. The operations of LMFC, one constructor per row of spec/opcode_table.json, with the data their operands
carry, and the words that stand on the block's ports (spec/45_host_interface.md R260).
-/
namespace Sys2Proof

/-- The link errors a codec can report: a parity failure (R136) or an overflow (R137). -/
inductive LinkErr where
  | parity | overflow
deriving DecidableEq, Repr

/-- The code of a LinkStatus event (R44): LS_OK or a link error. -/
inductive LinkStatus where
  | ok
  | err (e : LinkErr)
deriving DecidableEq, Repr

/-- What the codec hands to the session inside a FEED step (R44, R208). -/
inductive CodecEvent where
  | linkStatus (code : LinkStatus)
  | frame (f : Bytes)
deriving DecidableEq, Repr

/-- The four decoded numbers of a Count response (R242): accepted [acc1, acc2], rejected [rej1, rej2] (R244). -/
structure Counts where
  acc1 : Nat
  acc2 : Nat
  rej1 : Nat
  rej2 : Nat
deriving DecidableEq, Repr

/-- How an accepted request ends: one constructor for each of R212 to R217, the only callers of COMPLETE (R218). Its
operands via, ok, err, result and raw are functions of it (Machine/Flags.lean). [log 21] -/
inductive Resolution where
  | linkError (e : LinkErr)
  | deviceError (raw : Bytes)
  | headerMismatch
  | initOk
  | countOk (r : Counts)
  | formatFail
deriving DecidableEq, Repr

/-- The operations. The comment on each is its row's mnemonic. -/
inductive Instr where
  /-- PROTBYTE: a protected byte, parity bit `p` and value `v` (R90). -/
  | protbyte (p : Bool) (v : Val7)
  /-- DIGIT: a protected digit, parity bit `p` and digit `d` (R94). -/
  | digit (p : Bool) (d : BitVec 4)
  /-- TERM: the frame terminator (R92). -/
  | term
  /-- CMD_INIT: the Initialize command frame (R100). -/
  | cmdInit (option lenTop lenBottom thick : Byte)
  /-- CMD_COUNT: the Count command frame (R101). -/
  | cmdCount (c1 c2 : Nat)
  /-- RSP_DEVERR: 0xF0, a body, TERM (R106). -/
  | rspDeverr (body : Bytes)
  /-- RSP_INIT: a marker position, 02 34, a body, TERM (R104). -/
  | rspInit (marker : Byte) (body : Bytes)
  /-- RSP_COUNT: a marker position, 03 99, a body, TERM (R105). -/
  | rspCount (marker : Byte) (body : Bytes)
  /-- RSP_MISMATCH: any other frame while a request is outstanding; `data` is all but TERM (R112). -/
  | rspMismatch (data : Bytes)
  /-- RSP_IGNORED: any frame while Idle; `data` is all but TERM (R112). -/
  | rspIgnored (data : Bytes)
  /-- NOP: hc_op 0, no step is taken (R118). -/
  | nop
  /-- ISSUE_INIT (R201). -/
  | issueInit (option lenTop lenBottom thick : Byte)
  /-- ISSUE_COUNT (R202). -/
  | issueCount (c1 c2 : Nat)
  /-- CODEC_RESET (R140). -/
  | codecReset
  /-- FEED (R130, R131). -/
  | feed (b : Byte)
  /-- TXPOP (R225). -/
  | txpop
  /-- RESET (R320). -/
  | reset
  /-- SESSION_CONSUME (R208). -/
  | sessionConsume (events : List CodecEvent)
  /-- CLASSIFY (R211). -/
  | classify (f : Bytes)
  /-- COMPLETE (R218). -/
  | complete (r : Resolution)
  /-- FOLD (R220). -/
  | fold
  /-- LINK_ERROR_COMPLETION (R212). -/
  | linkErrorCompletion (e : LinkErr)
  /-- FORMAT_FAIL_COMPLETION (R217). -/
  | formatFailCompletion
  /-- BUSY (R204). -/
  | busy
  /-- ENC_INIT (R180). -/
  | encInit (option lenTop lenBottom thick : Byte)
  /-- ENC_COUNT (R182). -/
  | encCount (c1 c2 : Nat)
  /-- DEC_INIT (R241). -/
  | decInit (f : Bytes)
  /-- DEC_COUNT (R242). -/
  | decCount (f : Bytes)
  /-- DPENC, written D(n) (R164). -/
  | dpenc (n : Nat)
  /-- DPDEC (R166). -/
  | dpdec (hi lo : Byte)
  /-- PAR7 (R160). -/
  | par7 (v : Val7)
  /-- PROT (R161). -/
  | prot (v : Val7)
  /-- PARITY_OK (R162). -/
  | parityOk (b : Byte)
  /-- PROTECTED (R132). -/
  | protectedAt (off : Nat)
deriving DecidableEq, Repr

/-- What stands on one port (R260, R118), with its valid signals; the last three are the wire's own units (R90 to R106). -/
inductive PortWord where
  /-- The receive port: rx_valid and rx_data. -/
  | receive (rxValid : Bool) (rxData : Byte)
  /-- The transmit port: tx_ready. -/
  | transmit (txReady : Bool)
  /-- The host command port: hc_op and the four operand lanes. -/
  | hostCommand (op : BitVec 2) (a b c d : Byte)
  /-- The reset port: rst. -/
  | resetPin (rst : Bool)
  /-- One byte on the receive wire, read as a wire format (PROTBYTE, DIGIT, TERM). -/
  | wireByte (b : Byte)
  /-- A whole frame from the device. -/
  | fromDevice (f : Bytes)
  /-- A whole frame to the device. -/
  | toDevice (f : Bytes)
deriving DecidableEq, Repr

/-- Why a port word is no operation. -/
inductive DecodeError where
  /-- The port's valid signal is not asserted, or tx_ready stands with TXQ empty: no step is selected (R260). -/
  | portIdle
  /-- ISSUE_COUNT, or a Count command, with an operand above 99 (R205). -/
  | operandRange
  /-- Bytes from the device that are not one frame: TERM must stand last and nowhere else (R96). -/
  | notAFrame
  /-- Bytes to the device that are neither command layout (R110). -/
  | notACommand
deriving DecidableEq, Repr

/-- What decoding depends on besides the word: the configuration (R21), the outstanding command, in whose context
responses are decoded (R111), and tx_valid, which TXPOP needs (R260). -/
structure Ctx where
  cfg : Config
  outstanding : Option Kind
  txValid : Bool
deriving DecidableEq, Repr

end Sys2Proof
end

