-- ==== Sys2Proof/Machine/Operands.lean ====
section
/-!
DEFINITION. The pure functions of LMFC, which read and write no state and take the configuration as an argument (R21): parity and digit pairs
(spec/41_parity_digitpair.md), the command encoder (spec/42_command_encoder.md), the response decoder
(spec/44_response_decoder.md), the classification of a frame (spec/43_session.md R211) and its operands.
-/
namespace Sys2Proof.Machine

open Sys2Proof

/-! Parity (R160 to R162). -/

/-- `b[6:0]` (R10). -/
def low7 (b : Byte) : Val7 := b.setWidth 7

/-- `b[7]` (R10). -/
def bit7 (b : Byte) : Bool := b.getLsbD 7

/-- The byte with bit 7 `p` and bits 6 to 0 `v` (R90). -/
def joinByte (p : Bool) (v : Val7) : Byte := BitVec.ofBool p ++ v

/-- PAR7 (R160). -/
def par7 (v : Val7) : Bool :=
  (v.getLsbD 0 ^^ v.getLsbD 1 ^^ v.getLsbD 2 ^^ v.getLsbD 3 ^^ v.getLsbD 4 ^^ v.getLsbD 5 ^^ v.getLsbD 6) ^^ PAR_INVERT

/-- PROT (R161). -/
def prot (v : Val7) : Byte := joinByte (par7 v) v

/-- PARITY_OK (R162). -/
def parityOk (b : Byte) : Bool := bit7 b == par7 (low7 b)

/-! Digit pairs (R164, R166). -/

/-- The 7-bit character code of the digit `d` (R94). -/
def digitCode (cfg : Config) (d : Nat) : Val7 := cfg.digitBase + BitVec.ofNat 7 d

/-- DPENC, `D(n)`, for n in [0, 99] (R164). -/
def dpenc (cfg : Config) (n : Nat) : Bytes := [prot (digitCode cfg (n / 10)), prot (digitCode cfg (n % 10))]

/-- The digit a byte carries once bit 7 is masked off, if it carries one (R166). -/
def digitOf (cfg : Config) (b : Byte) : Option Nat :=
  let t := (low7 b).toNat
  let z := cfg.digitBase.toNat
  if z ≤ t ∧ t ≤ z + 9 then some (t - z) else none

/-- DPDEC (R166); `none` is NOT_DIGITS. -/
def dpdec (cfg : Config) (hi lo : Byte) : Option Nat :=
  match digitOf cfg hi, digitOf cfg lo with
  | some t, some u => some (10 * t + u)
  | _, _ => none

/-! Command encoder (R180, R182). -/

/-- ENC_INIT (R180, R100). -/
def encInit (cfg : Config) (option lenTop lenBottom thick : Byte) : Bytes :=
  [cfg.cmdOp, cfg.initClass, cfg.initSub, option, lenTop, lenBottom, 0x00, 0x00, 0x00, 0x00,
    thick, thick, thick, thick, cfg.term]

/-- ENC_COUNT, for operands in [0, 99] (R182, R101). -/
def encCount (cfg : Config) (c1 c2 : Nat) : Bytes :=
  let threshold := dpenc cfg cfg.rejectThreshold
  [cfg.cmdOp, cfg.countClass, cfg.countSub, cfg.countOption] ++ dpenc cfg c1 ++ dpenc cfg c2 ++ dpenc cfg 0 ++ dpenc cfg 0
    ++ threshold ++ threshold ++ threshold ++ threshold
    ++ [cfg.retryCount, cfg.retryCount, cfg.retryCount, cfg.retryCount] ++ [cfg.term]

/-- INIT_LEN (R7): the length of the Initialize command, derived from its layout (R100). [log 23] -/
def initLen (cfg : Config) : Nat := (encInit cfg 0 0 0 0).length

/-- COUNT_LEN (R7): the length of the Count command, derived from its layout (R101). [log 23] -/
def countLen (cfg : Config) : Nat := (encCount cfg 0 0).length

/-- An operand of ISSUE_COUNT, ENC_COUNT or D that is in the domain (R165, R205). -/
def inRange (n : Nat) : Bool := n ≤ COUNT_MAX

/-! Reading a received frame (R12 MemRead: defined only below the frame's end). -/

/-- EXP (R210). -/
def expHeader (cfg : Config) : Kind → Byte × Byte
  | .kInit => cfg.initRspHdr
  | .kCount => cfg.countRspHdr

/-- Offset 0 holds the device error marker (R211, R169: all eight bits). -/
def isDeviceError (cfg : Config) (f : Bytes) : Bool := f.head? == some cfg.errmark

/-- Offsets 1 and 2 hold the header expected for `k`; a frame shorter than 3 bytes has none (R211, R214). -/
def headerMatches (cfg : Config) (k : Kind) (f : Bytes) : Bool :=
  match f with
  | _ :: h0 :: h1 :: _ => h0 == (expHeader cfg k).1 && h1 == (expHeader cfg k).2
  | _ => false

/-- The digit pair at payload offset `off` of `f` (R108, R242). -/
def digitsAt (cfg : Config) (f : Bytes) (off : Nat) : Option Nat :=
  match f[cfg.fieldBase + off]?, f[cfg.fieldBase + off + 1]? with
  | some hi, some lo => dpdec cfg hi lo
  | _, _ => none

/-- DEC_COUNT (R242); `none` is FORMAT_FAIL. -/
def decCount (cfg : Config) (f : Bytes) : Option Counts :=
  if f.length < cfg.countRspMin then none
  else
    match digitsAt cfg f cfg.offAcc1, digitsAt cfg f cfg.offAcc2, digitsAt cfg f cfg.offRej1, digitsAt cfg f cfg.offRej2 with
    | some a1, some a2, some r1, some r2 => some ⟨a1, a2, r1, r2⟩
    | _, _, _, _ => none

/-- The precondition of every decode besides an outstanding request: no marker, the header matches (R240). -/
def decodable (cfg : Config) (k : Kind) (f : Bytes) : Bool := !isDeviceError cfg f && headerMatches cfg k f

/-- CLASSIFY's choice: marker first, header second, decode last (R211, R111, R292). -/
def verdict (cfg : Config) (k : Kind) (f : Bytes) : Resolution :=
  if isDeviceError cfg f then .deviceError f
  else if !headerMatches cfg k f then .headerMismatch
  else
    match k with
    | .kInit => .initOk
    | .kCount =>
      match decCount cfg f with
      | some r => .countOk r
      | none => .formatFail

/-! What the codec checks (R132). -/

/-- PROTMAP (R8). -/
def protMap (cfg : Config) (sel : ProtSel) (off : Nat) : Bool := cfg.protMap.contains (sel, off)

/-- PROTECTED (R132), with the error-marker exemption of R135; `buf` is `RXBUF[0:RXLEN]`. -/
def protectedOff (cfg : Config) (sel : ProtSel) (buf : Bytes) (off : Nat) : Bool :=
  protMap cfg sel off && !(decide (1 ≤ off) && isDeviceError cfg buf)

/-! Frames. -/

/-- A whole frame: the data bytes and the terminator (R96). -/
def close (cfg : Config) (data : Bytes) : Bytes := data ++ [cfg.term]

/-- The data bytes of a sequence that is one frame: TERM last and nowhere else (R44, R96). -/
def openFrame (cfg : Config) (f : Bytes) : Option Bytes :=
  let data := f.dropLast
  if f.getLast? = some cfg.term ∧ cfg.term ∉ data then some data else none

/-- The bytes of a device error response (R106). -/
def deverrFrame (cfg : Config) (body : Bytes) : Bytes := close cfg (cfg.errmark :: body)

/-- The bytes of a response that carries the header of `k` (R104, R105). -/
def headedFrame (cfg : Config) (k : Kind) (marker : Byte) (body : Bytes) : Bytes :=
  close cfg (marker :: (expHeader cfg k).1 :: (expHeader cfg k).2 :: body)

/-- PROTSEL for a command kind (R26). -/
def selOf : Kind → ProtSel
  | .kInit => .psInit
  | .kCount => .psCount

end Sys2Proof.Machine
end

