-- ==== Sys2Proof/Machine/State.lean ====
section
/-!
DEFINITION. The state of LMFC (spec/10_state.md R20), the events a step emits (R44), the reasons a step can stop, and the
state right after reset (spec/70_reset_and_hazards.md R320). Everything here is plain data.
-/
namespace Sys2Proof.Machine

open Sys2Proof

/-- RXMODE (R23). -/
inductive RxMode where
  | assemble | drop
deriving DecidableEq, Repr

/-- LSTAT (R27). -/
inductive LStat where
  | lsNone | lsOk | lsParity | lsOverflow
deriving DecidableEq, Repr

/-- SSTATE (R30). -/
inductive SState where
  | idle | awaitingResponse | responded | errored
deriving DecidableEq, Repr

/-- The failure codes of R280; the reserved codes 8 to 15 are never produced and are no constructors (U14). -/
inductive ErrCode where
  | eNone | eLinkParity | eBusy | eDevice | eHeaderMismatch | eTransport | eFormat | eLinkOverflow
deriving DecidableEq, Repr

/-- What an ISSUE answers (R44). -/
inductive IssueOutcome where
  | accepted | busy
deriving DecidableEq, Repr

/-- The transient state a request ended through (R44). -/
inductive Via where
  | responded | errored
deriving DecidableEq, Repr

/-- The fields of a Completion event (R44). -/
structure Completion where
  via : Via
  kind : Kind
  ok : Bool
  err : ErrCode
  result : Option Counts
  raw : Option Bytes
deriving DecidableEq, Repr

/-- The events of a step (R44). -/
inductive Event where
  | linkStatus (code : LinkStatus)
  | frame (f : Bytes)
  | issueOutcome (o : IssueOutcome)
  | completion (c : Completion)
  | txByte (b : Byte)
deriving DecidableEq, Repr

/-- What a pure micro-operation returns when it is run on its own. [log 3] -/
inductive MicroResult where
  /-- PAR7 (one bit), PARITY_OK, PROTECTED (a Boolean). -/
  | flag (b : Bool)
  /-- PROT. -/
  | byte (b : Byte)
  /-- DPENC, ENC_INIT, ENC_COUNT, and the command frames. -/
  | bytes (bs : Bytes)
  /-- DPDEC. -/
  | number (n : Nat)
  /-- DPDEC's failure NOT_DIGITS (R166). -/
  | notDigits
  /-- DEC_INIT's success (R241). -/
  | success
  /-- DEC_COUNT (R242). -/
  | counts (r : Counts)
  /-- DEC_COUNT's failure FORMAT_FAIL (R243, R245). -/
  | formatFail
deriving DecidableEq, Repr

/-- The state. RXLEN and RAWLEN are the lengths of `rxBuf` and `rawFrame` (93_implementation_defined.md U4). The last
five fields are the model's own. -/
structure State where
  /-- RXMODE (R23). -/
  rxMode : RxMode
  /-- RXBUF[0:RXLEN] (R24, R25). -/
  rxBuf : Bytes
  /-- PROTSEL (R26). -/
  protSel : ProtSel
  /-- LSTAT (R27). -/
  lstat : LStat
  /-- SSTATE (R30). -/
  sstate : SState
  /-- PEND_KIND (R31). -/
  pendKind : Kind
  /-- TXQ, its head first (R33). -/
  txq : Bytes
  /-- RES_VALID (R35). -/
  resValid : Bool
  /-- RES_OK (R35). -/
  resOk : Bool
  /-- RES_ERR (R35). -/
  resErr : ErrCode
  /-- RES_KIND (R35). -/
  resKind : Kind
  /-- ACC1 (R36). -/
  acc1 : Val7
  /-- ACC2 (R36). -/
  acc2 : Val7
  /-- REJ1 (R36). -/
  rej1 : Val7
  /-- REJ2 (R36). -/
  rej2 : Val7
  /-- RAWFRAME[0:RAWLEN] (R38). -/
  rawFrame : Bytes
  /-- The configuration, which no operation writes (R7, R8, R21). [log 1] -/
  cfg : Config
  /-- The events of the latest step, in order (R44, R45). [log 2] -/
  events : List Event
  /-- What a pure micro-operation returned in the latest step. [log 3] -/
  result : Option MicroResult
  /-- What the environment offers on the ports, the next first. [log 4] -/
  inputs : List PortWord
  /-- Where the next free value is drawn. [log 6] -/
  freeCtr : Nat
deriving DecidableEq, Repr

/-- RXLEN (R24). -/
def State.rxLen (s : State) : Nat := s.rxBuf.length

/-- RAWLEN (R38). -/
def State.rawLen (s : State) : Nat := s.rawFrame.length

/-- The state right after reset (R320). PEND_KIND, RES_KIND, ACC1, ACC2, REJ1 and REJ2 have no reset value in the spec: the
values here are the model's. DESIGN CHOICE, unsafe. [log 5] -/
def State.reset : State where
  rxMode := .assemble
  rxBuf := []
  protSel := .psNone
  lstat := .lsNone
  sstate := .idle
  pendKind := .kInit
  txq := []
  resValid := false
  resOk := false
  resErr := .eNone
  resKind := .kInit
  acc1 := 0
  acc2 := 0
  rej1 := 0
  rej2 := 0
  rawFrame := []
  cfg := Config.default
  events := []
  result := none
  inputs := []
  freeCtr := 0

/-- No fault exists: no failure stops the block (R297), every one is an outcome of a request. [log 20] -/
inductive Fault where
deriving DecidableEq, Repr

/-- Why a step is refused. Every refusal is safe: the model stops where the spec has no step. -/
inductive Refusal where
  /-- Raised by exec's arms for an operation not modelled. Safe. -/
  | notModelled (mnemonic : String)
  /-- Raised by ISSUE_COUNT, ENC_COUNT, CMD_COUNT and DPENC on an operand above 99: no operation of LMFC (R165, R183 d, R205, U1). Safe. -/
  | operandRange
  /-- Raised by TXPOP when TXQ is empty: it is not enabled (R225, R262). Safe. -/
  | txqEmpty
  /-- Raised by CLASSIFY and LINK_ERROR_COMPLETION outside AwaitingResponse (R211, R212), and by COMPLETE and
  FORMAT_FAIL_COMPLETION while Idle (R217, R266). Safe. -/
  | noRequest
  /-- Raised by COMPLETE and FORMAT_FAIL_COMPLETION on an outcome the outstanding command kind does not have (R215 to R217). Safe. -/
  | otherKind
  /-- Raised by CLASSIFY on an empty sequence, which is no frame (R211: len(f) >= 1). Safe. -/
  | emptyFrame
  /-- Raised by BUSY while Idle: an ISSUE is then not refused (R204). Safe. -/
  | notBusy
  /-- Raised by FOLD in AwaitingResponse: it would cancel the request (R221, R222). Safe. -/
  | wouldCancel
  /-- Raised by DEC_INIT and DEC_COUNT without the precondition of every decode (R240). Safe. -/
  | decodePrecondition
  /-- Raised by PROTECTED when it would read RXBUF[0] with RXLEN = 0 (R25, U4). Safe. -/
  | bufferUndefined
  /-- Raised by step when the offered word is no operation; never with `portIdle`, which selects no step. Safe. -/
  | undecodable (e : DecodeError)
deriving DecidableEq, Repr

end Sys2Proof.Machine
end

