-- ==== Sys2Proof/Machine/Flags.lean ====
section
/-!
DEFINITION. The status the block shows: the numeric codes of its registers (spec/10_state.md R20, R280, decision D16), the
derived flags (R40, R41), the readable ports (spec/45_host_interface.md R260), and what a resolution writes into the
result registers (spec/43_session.md R212 to R217).
-/
namespace Sys2Proof.Machine

open Sys2Proof

/-! Numeric codes (R20, D16). -/

/-- RXMODE's codes. -/
def rxModeCode : RxMode → BitVec 1
  | .assemble => 0
  | .drop => 1

/-- PROTSEL's codes. -/
def protSelCode : ProtSel → BitVec 2
  | .psNone => 0
  | .psInit => 1
  | .psCount => 2

/-- LSTAT's codes. -/
def lstatCode : LStat → BitVec 2
  | .lsNone => 0
  | .lsOk => 1
  | .lsParity => 2
  | .lsOverflow => 3

/-- SSTATE's codes. -/
def sstateCode : SState → BitVec 2
  | .idle => 0
  | .awaitingResponse => 1
  | .responded => 2
  | .errored => 3

/-- The codes of PEND_KIND and RES_KIND. -/
def kindCode : Kind → BitVec 1
  | .kInit => 0
  | .kCount => 1

/-- The failure codes (R280). -/
def errCode : ErrCode → BitVec 4
  | .eNone => 0
  | .eLinkParity => 1
  | .eBusy => 2
  | .eDevice => 3
  | .eHeaderMismatch => 4
  | .eTransport => 5
  | .eFormat => 6
  | .eLinkOverflow => 7

/-! Status written by an operation. -/

/-- LSTAT mirrors the latest LinkStatus event (R27). -/
def lstatOf : LinkStatus → LStat
  | .ok => .lsOk
  | .err .parity => .lsParity
  | .err .overflow => .lsOverflow

/-- The transient state a resolution goes through (R212 to R217). -/
def viaOf : Resolution → Via
  | .linkError _ => .errored
  | .deviceError _ => .errored
  | .headerMismatch => .errored
  | .initOk => .responded
  | .countOk _ => .responded
  | .formatFail => .responded

/-- SSTATE in that transient state. -/
def sstateOf : Via → SState
  | .responded => .responded
  | .errored => .errored

/-- RES_OK of a resolution (R212 to R217). -/
def okOf : Resolution → Bool
  | .linkError _ => false
  | .deviceError _ => false
  | .headerMismatch => false
  | .initOk => true
  | .countOk _ => true
  | .formatFail => false

/-- RES_ERR of a resolution (R280). -/
def errOf : Resolution → ErrCode
  | .linkError .parity => .eLinkParity
  | .linkError .overflow => .eLinkOverflow
  | .deviceError _ => .eDevice
  | .headerMismatch => .eHeaderMismatch
  | .initOk => .eNone
  | .countOk _ => .eNone
  | .formatFail => .eFormat

/-- The counts a Completion carries: only a successful Count's (R44, R216). -/
def resultOf : Resolution → Option Counts
  | .countOk r => some r
  | .linkError _ => none
  | .deviceError _ => none
  | .headerMismatch => none
  | .initOk => none
  | .formatFail => none

/-- The raw frame a Completion carries: only a DeviceError's (R44, R213). -/
def rawOf : Resolution → Option Bytes
  | .deviceError f => some f
  | .linkError _ => none
  | .headerMismatch => none
  | .initOk => none
  | .countOk _ => none
  | .formatFail => none

/-- The command kinds a resolution can end: success and E_FORMAT belong to one kind each (R215 to R217). -/
def fitsKind : Resolution → Kind → Bool
  | .initOk, k => k == .kInit
  | .countOk _, k => k == .kCount
  | .formatFail, k => k == .kCount
  | .linkError _, _ => true
  | .deviceError _, _ => true
  | .headerMismatch, _ => true

/-- The Completion event of a resolution (R218). -/
def completionOf (k : Kind) (r : Resolution) : Completion where
  via := viaOf r
  kind := k
  ok := okOf r
  err := errOf r
  result := resultOf r
  raw := rawOf r

/-- The event the host sees for a codec event (R44). -/
def eventOf : CodecEvent → Event
  | .linkStatus c => .linkStatus c
  | .frame f => .frame f

/-! Derived flags (R40, R41) and conditions on the state. -/

/-- BUSY (R40). -/
def busyFlag (s : State) : Bool := s.sstate != .idle

/-- TX_PENDING, which is tx_valid (R41, R260). -/
def txPending (s : State) : Bool := !s.txq.isEmpty

/-- The condition under which the host may read ACC1, ACC2, REJ1 and REJ2 (R36, R271). -/
def countsReadable (s : State) : Bool := s.resValid && s.resOk && s.resKind == .kCount

/-- Quiescence (R272). -/
def quiescent (s : State) : Bool :=
  s.sstate == .idle && s.txq.isEmpty && s.rxMode == .assemble && s.rxBuf.isEmpty

/-- The registers readable on the host response port, by their codes, and the transmit port's two outputs (R260). -/
structure Ports where
  sstate : BitVec 2
  lstat : BitVec 2
  resValid : Bool
  resOk : Bool
  resErr : BitVec 4
  resKind : BitVec 1
  acc1 : Val7
  acc2 : Val7
  rej1 : Val7
  rej2 : Val7
  rawFrame : Bytes
  rawLen : Nat
  txValid : Bool
  txData : Option Byte
deriving DecidableEq, Repr

/-- What stands on the block's output ports; reading has no side effect (R69, R260). -/
def ports (s : State) : Ports where
  sstate := sstateCode s.sstate
  lstat := lstatCode s.lstat
  resValid := s.resValid
  resOk := s.resOk
  resErr := errCode s.resErr
  resKind := kindCode s.resKind
  acc1 := s.acc1
  acc2 := s.acc2
  rej1 := s.rej1
  rej2 := s.rej2
  rawFrame := s.rawFrame
  rawLen := s.rawLen
  txValid := txPending s
  txData := s.txq.head?

end Sys2Proof.Machine
end

