-- ==== Sys2Proof/Machine/Ops.lean ====
section
/-!
DEFINITION. The shared operations over the state: the codec part of FEED (spec/40_frame_codec.md R131), the session's
consumption of its events (spec/43_session.md R208), entering a failure or a success and the fold back (R212 to R220,
spec/60_exceptions.md R293, R295), arming a request (R201 to R203), the transmit queue (R225) and RESET
(spec/70_reset_and_hazards.md R320).
-/
namespace Sys2Proof.Machine

open Sys2Proof

/-- What every operation answers. -/
abbrev Outcome := Host.Outcome State Fault Refusal

/-- The start of a step: its event list is empty and nothing has been returned (R44). [log 2] -/
def beginStep (s : State) : State := { s with events := [], result := none }

/-- `emit` (R12). -/
def emit (e : Event) (s : State) : State := { s with events := s.events ++ [e] }

/-- The value a pure micro-operation returns. [log 3] -/
def returnValue (r : MicroResult) (s : State) : State := { s with result := some r }

/-! Ending a request (R212 to R220). -/

/-- FOLD: the return from a failure or a success (R220, R295). -/
def foldIdle (s : State) : State := { s with sstate := .idle }

/-- COMPLETE (R218). -/
def completeRequest (r : Resolution) (s : State) : State :=
  foldIdle (emit (.completion (completionOf s.pendKind r))
    { s with resValid := true, resOk := okOf r, resErr := errOf r, resKind := s.pendKind })

/-- What a resolution saves besides the result flags: the raw frame of a DeviceError (R213), the counts of a Count (R216). -/
def saveResult (r : Resolution) (s : State) : State :=
  match r with
  | .deviceError f => { s with rawFrame := f }
  | .countOk c =>
    { s with
      acc1 := BitVec.ofNat 7 c.acc1, acc2 := BitVec.ofNat 7 c.acc2
      rej1 := BitVec.ofNat 7 c.rej1, rej2 := BitVec.ofNat 7 c.rej2 }
  | .linkError _ => s
  | .headerMismatch => s
  | .initOk => s
  | .formatFail => s

/-- The one way a request ends (R293, R212 to R217): the transient state, what it saves, COMPLETE with its fold. -/
def resolve (r : Resolution) (s : State) : State :=
  completeRequest r (saveResult r { s with sstate := sstateOf (viaOf r) })

/-- CLASSIFY, in AwaitingResponse (R211). -/
def classifyFrame (f : Bytes) (s : State) : State := resolve (verdict s.cfg s.pendKind f) s

/-- The session takes one codec event (R208, R209, R212, R219). -/
def consumeEvent (s : State) (ev : CodecEvent) : State :=
  if s.sstate = .awaitingResponse then
    match ev with
    | .linkStatus .ok => s
    | .linkStatus (.err e) => resolve (.linkError e) s
    | .frame f => classifyFrame f s
  else s

/-- SESSION_CONSUME (R208). -/
def consumeEvents (evs : List CodecEvent) (s : State) : State := evs.foldl consumeEvent s

/-! The frame codec (R131 to R140). -/

/-- A frame completes (R134). -/
def frameDone (s : State) : State × List CodecEvent :=
  ({ s with rxBuf := [], lstat := lstatOf .ok }, [.linkStatus .ok, .frame (close s.cfg s.rxBuf)])

/-- A link error: the partial frame is discarded and the codec drops bytes until the next TERM (R136, R137). -/
def linkFail (e : LinkErr) (s : State) : State × List CodecEvent :=
  ({ s with rxBuf := [], rxMode := .drop, lstat := lstatOf (.err e) }, [.linkStatus (.err e)])

/-- The byte is stored at offset RXLEN (R138). -/
def storeByte (b : Byte) (s : State) : State × List CodecEvent := ({ s with rxBuf := s.rxBuf ++ [b] }, [])

/-- PROTECTED of the byte about to take offset `off` (R132). -/
def isProtected (s : State) (off : Nat) : Bool := protectedOff s.cfg s.protSel s.rxBuf off

/-- The codec part of FEED: the first of the five cases whose condition holds (R131). -/
def codecFeed (b : Byte) (s : State) : State × List CodecEvent :=
  if s.rxMode = .drop then
    (if b = s.cfg.term then { s with rxMode := .assemble } else s, [])
  else if b = s.cfg.term then frameDone s
  else if s.rxLen = s.cfg.frameMax - 1 then linkFail .overflow s
  else if isProtected s s.rxLen && !parityOk b then linkFail .parity s
  else storeByte b s

/-- The codec's events become the step's first events (R45). -/
def emitAll (evs : List CodecEvent) (s : State) : State := { s with events := s.events ++ evs.map eventOf }

/-- FEED: the codec part, then the session on its events (R13, R130, R208). -/
def feedByte (b : Byte) (s : State) : State :=
  let r := codecFeed b s
  consumeEvents r.2 (emitAll r.2 r.1)

/-- FEEDS: one FEED for each byte, in order; the event list is the concatenation (R121). -/
def feedBytes (bs : Bytes) (s : State) : State := bs.foldl (fun t b => feedByte b t) s

/-- CODEC_RESET (R140). -/
def codecClear (s : State) : State := { s with rxBuf := [], rxMode := .assemble }

/-! The session's commands (R201 to R204). -/

/-- The bytes an accepted ISSUE appends: TX_COPIES copies of the command (R203). -/
def copies (cfg : Config) (cmd : Bytes) : Bytes := (List.replicate cfg.txCopies cmd).flatten

/-- An accepted ISSUE (R201, R202): arm and enqueue in one step (R81, R203). -/
def arm (k : Kind) (cmd : Bytes) (s : State) : State :=
  emit (.issueOutcome .accepted)
    { s with sstate := .awaitingResponse, pendKind := k, protSel := selOf k, txq := s.txq ++ copies s.cfg cmd }

/-- BUSY: the step's only effect is its event (R204). -/
def rejectBusy (s : State) : State := emit (.issueOutcome .busy) s

/-- ISSUE: the busy test, then arming (R201, R202, R204). -/
def issue (k : Kind) (cmd : Bytes) (s : State) : State :=
  if busyFlag s then rejectBusy s else arm k cmd s

/-! RESET (R320). -/

/-- Every piece of state at its value after RESET. What R320 calls unspecified takes a free value. [log 6] -/
def resetBlock (s : State) : State :=
  { s with
    rxMode := .assemble, rxBuf := [], protSel := .psNone, lstat := .lsNone
    sstate := .idle, txq := []
    resValid := false, resOk := false, resErr := .eNone, rawFrame := []
    pendKind := Config.freeKind s.freeCtr
    resKind := Config.freeKind (s.freeCtr + 1)
    acc1 := BitVec.ofNat 7 (Config.freeCount (s.freeCtr + 2)).val
    acc2 := BitVec.ofNat 7 (Config.freeCount (s.freeCtr + 3)).val
    rej1 := BitVec.ofNat 7 (Config.freeCount (s.freeCtr + 4)).val
    rej2 := BitVec.ofNat 7 (Config.freeCount (s.freeCtr + 5)).val
    freeCtr := s.freeCtr + 6 }

end Sys2Proof.Machine
end

