-- ==== Sys2Proof/Machine/Block.lean ====
section
/-!
DEFINITION. The block operations (spec/00_scope.md R2 b): NOP, ISSUE_INIT, ISSUE_COUNT, CODEC_RESET on the host command port
(spec/30_encoding.md R118), FEED, TXPOP and RESET on their own ports.
-/
namespace Sys2Proof.Machine

open Sys2Proof

/-- NOP: no step is taken, so nothing is emitted and nothing changes (R118, U14). -/
def execNop (s : State) : Outcome := .next (beginStep s)

/-- ISSUE_INIT (R201). -/
def execIssueInit (o t b k : Byte) (s : State) : Outcome :=
  .next (issue .kInit (encInit s.cfg o t b k) (beginStep s))

/-- ISSUE_COUNT (R202); an operand above 99 is refused before the busy test (R205, R292). -/
def execIssueCount (c1 c2 : Nat) (s : State) : Outcome :=
  if inRange c1 && inRange c2 then .next (issue .kCount (encCount s.cfg c1 c2) (beginStep s))
  else .refused .operandRange

/-- CODEC_RESET (R140). -/
def execCodecReset (s : State) : Outcome := .next (codecClear (beginStep s))

/-- FEED (R130, R131, R208). -/
def execFeed (b : Byte) (s : State) : Outcome := .next (feedByte b (beginStep s))

/-- TXPOP: enabled exactly when TXQ is not empty (R225). -/
def execTxpop (s : State) : Outcome :=
  match s.txq with
  | [] => .refused .txqEmpty
  | b :: rest => .next (emit (.txByte b) { beginStep s with txq := rest })

/-- RESET (R320, R322): it emits no event. -/
def execReset (s : State) : Outcome := .next (resetBlock (beginStep s))

end Sys2Proof.Machine
end

