-- ==== Sys2Proof/Machine/Micro.lean ====
section
/-!
DEFINITION. The pure micro-operations (spec/41_parity_digitpair.md, 42_command_encoder.md, 44_response_decoder.md), each run
on its own: the value is returned and the block's state is untouched. [log 3]
-/
namespace Sys2Proof.Machine

open Sys2Proof

/-- A pure micro-operation's step: nothing changes but the value returned. -/
def answer (r : MicroResult) (s : State) : Outcome := .next (returnValue r (beginStep s))

/-- ENC_INIT (R180). -/
def execEncInit (o t b k : Byte) (s : State) : Outcome := answer (.bytes (encInit s.cfg o t b k)) s

/-- ENC_COUNT (R182); it is never called outside [0, 99] (R183 d). -/
def execEncCount (c1 c2 : Nat) (s : State) : Outcome :=
  if inRange c1 && inRange c2 then answer (.bytes (encCount s.cfg c1 c2)) s else .refused .operandRange

/-- The precondition of every decode (R240): a request of kind `k` is outstanding, no marker, the header matches. That `f` is a
delivered frame (TERM last and nowhere else) is not tested: the spec has no call on another sequence, and decoding it
like a frame is the model's choice. DESIGN CHOICE, safe. [log 24] -/
def mayDecode (k : Kind) (f : Bytes) (s : State) : Bool :=
  busyFlag s && s.pendKind == k && decodable s.cfg k f

/-- DEC_INIT (R241). -/
def execDecInit (f : Bytes) (s : State) : Outcome :=
  if mayDecode .kInit f s then answer .success s else .refused .decodePrecondition

/-- DEC_COUNT (R242). -/
def execDecCount (f : Bytes) (s : State) : Outcome :=
  if mayDecode .kCount f s then
    match decCount s.cfg f with
    | some r => answer (.counts r) s
    | none => answer .formatFail s
  else .refused .decodePrecondition

/-- DPENC (R164); defined on [0, 99] only (R165). -/
def execDpenc (n : Nat) (s : State) : Outcome :=
  if inRange n then answer (.bytes (dpenc s.cfg n)) s else .refused .operandRange

/-- DPDEC (R166). -/
def execDpdec (hi lo : Byte) (s : State) : Outcome :=
  match dpdec s.cfg hi lo with
  | some n => answer (.number n) s
  | none => answer .notDigits s

/-- PAR7 (R160). -/
def execPar7 (v : Val7) (s : State) : Outcome := answer (.flag (par7 v)) s

/-- PROT (R161). -/
def execProt (v : Val7) (s : State) : Outcome := answer (.byte (prot v)) s

/-- PARITY_OK (R162). -/
def execParityOk (b : Byte) (s : State) : Outcome := answer (.flag (parityOk b)) s

/-- PROTECTED (R132); RXBUF[0] is defined only when RXLEN > 0 (R25, U4), and is read only where PROTMAP holds. -/
def execProtectedAt (off : Nat) (s : State) : Outcome :=
  if protMap s.cfg s.protSel off && decide (1 ≤ off) && s.rxBuf.isEmpty then .refused .bufferUndefined
  else answer (.flag (isProtected s off)) s

end Sys2Proof.Machine
end

