-- ==== Sys2Proof/Machine/Session.lean ====
section
/-!
DEFINITION. The session's micro-operations (spec/43_session.md), each as the operation on its own. They have no encoding:
no port selects them, and FEED and ISSUE run them inside their one step. Outside the states their rules run them in
they are refused. [log 13]
-/
namespace Sys2Proof.Machine

open Sys2Proof

/-- SESSION_CONSUME (R208, R209). -/
def execSessionConsume (evs : List CodecEvent) (s : State) : Outcome := .next (consumeEvents evs (beginStep s))

/-- CLASSIFY (R211): it runs only in AwaitingResponse, on a frame of at least one byte. -/
def execClassify (f : Bytes) (s : State) : Outcome :=
  if s.sstate = .awaitingResponse then
    if f.isEmpty then .refused .emptyFrame else .next (classifyFrame f (beginStep s))
  else .refused .noRequest

/-- COMPLETE (R218): it ends the outstanding request; never while Idle (R266). [log 26] -/
def execComplete (r : Resolution) (s : State) : Outcome :=
  if s.sstate = .idle then .refused .noRequest
  else if fitsKind r s.pendKind then .next (completeRequest r (beginStep s))
  else .refused .otherKind

/-- FOLD (R220): in AwaitingResponse it would cancel the request, which LMFC cannot do (R221, R222). [log 26] -/
def execFold (s : State) : Outcome :=
  if s.sstate = .awaitingResponse then .refused .wouldCancel else .next (foldIdle (beginStep s))

/-- LINK_ERROR_COMPLETION (R212): in AwaitingResponse. -/
def execLinkErrorCompletion (e : LinkErr) (s : State) : Outcome :=
  if s.sstate = .awaitingResponse then .next (resolve (.linkError e) (beginStep s)) else .refused .noRequest

/-- FORMAT_FAIL_COMPLETION (R217): while a Count is outstanding. -/
def execFormatFailCompletion (s : State) : Outcome :=
  if s.sstate = .idle then .refused .noRequest
  else if s.pendKind = .kCount then .next (resolve .formatFail (beginStep s))
  else .refused .otherKind

/-- BUSY (R204): when SSTATE is not Idle. -/
def execBusy (s : State) : Outcome :=
  if busyFlag s then .next (rejectBusy (beginStep s)) else .refused .notBusy

end Sys2Proof.Machine
end

