-- ==== Sys2Proof/Machine/Wire.lean ====
section
/-!
DEFINITION. The wire formats as operations (spec/30_encoding.md): a byte or a response frame on the receive wire is fed,
byte after byte (R121 FEEDS); a command frame is what the encoder builds and changes nothing of the block.
-/
namespace Sys2Proof.Machine

open Sys2Proof

/-- PROTBYTE (R90, R161): the byte is fed (R131). [log 9] -/
def execProtbyte (p : Bool) (v : Val7) (s : State) : Outcome := .next (feedByte (joinByte p v) (beginStep s))

/-- DIGIT (R94, R164): the byte is fed (R131). [log 9] R94 gives codes for 0 to 9 only; for an operand of 10 to 15 feeding the
byte DIGIT_BASE + d (mod 128) under the given parity bit is the model's choice. DESIGN CHOICE, safe. [log 25] -/
def execDigit (p : Bool) (d : BitVec 4) (s : State) : Outcome :=
  .next (feedByte (joinByte p (digitCode s.cfg d.toNat)) (beginStep s))

/-- TERM (R92): the byte is fed (R133, R134). [log 9] -/
def execTerm (s : State) : Outcome := .next (feedByte s.cfg.term (beginStep s))

/-- CMD_INIT (R100, R180). [log 11] -/
def execCmdInit (o t b k : Byte) (s : State) : Outcome :=
  .next (returnValue (.bytes (encInit s.cfg o t b k)) (beginStep s))

/-- CMD_COUNT (R101, R182); outside [0, 99] there is no such frame (R183 d). [log 11] -/
def execCmdCount (c1 c2 : Nat) (s : State) : Outcome :=
  if inRange c1 && inRange c2 then .next (returnValue (.bytes (encCount s.cfg c1 c2)) (beginStep s))
  else .refused .operandRange

/-- RSP_DEVERR (R106, R213): the frame's bytes are fed. [log 10, log 26] -/
def execRspDeverr (body : Bytes) (s : State) : Outcome := .next (feedBytes (deverrFrame s.cfg body) (beginStep s))

/-- RSP_INIT (R104, R215): the frame's bytes are fed. [log 10, log 26] -/
def execRspInit (m : Byte) (body : Bytes) (s : State) : Outcome :=
  .next (feedBytes (headedFrame s.cfg .kInit m body) (beginStep s))

/-- RSP_COUNT (R105, R216, R217): the frame's bytes are fed. [log 10, log 26] -/
def execRspCount (m : Byte) (body : Bytes) (s : State) : Outcome :=
  .next (feedBytes (headedFrame s.cfg .kCount m body) (beginStep s))

/-- RSP_MISMATCH (R112, R214): the frame's bytes are fed. [log 10, log 26] -/
def execRspMismatch (data : Bytes) (s : State) : Outcome := .next (feedBytes (close s.cfg data) (beginStep s))

/-- RSP_IGNORED (R112, R209): the frame's bytes are fed. [log 10, log 26] -/
def execRspIgnored (data : Bytes) (s : State) : Outcome := .next (feedBytes (close s.cfg data) (beginStep s))

end Sys2Proof.Machine
end

