-- ==== Sys2Proof/Machine/Dispatch.lean ====
section
/-!
DEFINITION. exec: one arm per operation of spec/opcode_table.json, each one call of its meaning.
-/
namespace Sys2Proof.Machine

open Sys2Proof

/-- What an operation does. -/
def exec (i : Instr) (s : State) : Host.Outcome State Fault Refusal :=
  match i with
  -- wire formats
  | .protbyte p v => Sys2Proof.Machine.execProtbyte p v s
  | .digit p d => Sys2Proof.Machine.execDigit p d s
  | .term => Sys2Proof.Machine.execTerm s
  | .cmdInit o t b k => Sys2Proof.Machine.execCmdInit o t b k s
  | .cmdCount c1 c2 => Sys2Proof.Machine.execCmdCount c1 c2 s
  | .rspDeverr body => Sys2Proof.Machine.execRspDeverr body s
  | .rspInit m body => Sys2Proof.Machine.execRspInit m body s
  | .rspCount m body => Sys2Proof.Machine.execRspCount m body s
  | .rspMismatch data => Sys2Proof.Machine.execRspMismatch data s
  | .rspIgnored data => Sys2Proof.Machine.execRspIgnored data s
  -- block operations
  | .nop => Sys2Proof.Machine.execNop s
  | .issueInit o t b k => Sys2Proof.Machine.execIssueInit o t b k s
  | .issueCount c1 c2 => Sys2Proof.Machine.execIssueCount c1 c2 s
  | .codecReset => Sys2Proof.Machine.execCodecReset s
  | .feed b => Sys2Proof.Machine.execFeed b s
  | .txpop => Sys2Proof.Machine.execTxpop s
  | .reset => Sys2Proof.Machine.execReset s
  -- session micro-operations
  | .sessionConsume evs => Sys2Proof.Machine.execSessionConsume evs s
  | .classify f => Sys2Proof.Machine.execClassify f s
  | .complete r => Sys2Proof.Machine.execComplete r s
  | .fold => Sys2Proof.Machine.execFold s
  | .linkErrorCompletion e => Sys2Proof.Machine.execLinkErrorCompletion e s
  | .formatFailCompletion => Sys2Proof.Machine.execFormatFailCompletion s
  | .busy => Sys2Proof.Machine.execBusy s
  -- pure micro-operations
  | .encInit o t b k => Sys2Proof.Machine.execEncInit o t b k s
  | .encCount c1 c2 => Sys2Proof.Machine.execEncCount c1 c2 s
  | .decInit f => Sys2Proof.Machine.execDecInit f s
  | .decCount f => Sys2Proof.Machine.execDecCount f s
  | .dpenc n => Sys2Proof.Machine.execDpenc n s
  | .dpdec hi lo => Sys2Proof.Machine.execDpdec hi lo s
  | .par7 v => Sys2Proof.Machine.execPar7 v s
  | .prot v => Sys2Proof.Machine.execProt v s
  | .parityOk b => Sys2Proof.Machine.execParityOk b s
  | .protectedAt off => Sys2Proof.Machine.execProtectedAt off s

end Sys2Proof.Machine
end

