-- ==== Sys2Proof/WellFormed.lean ====
section
/-!
DEFINITION. Which configurations and operations are well formed: the facts of the constants that the spec derives from their
values (93_implementation_defined.md U17), and the operand conditions of the formats (spec/30_encoding.md), decidable,
with no reference to the state.
-/
namespace Sys2Proof

open Sys2Proof.Machine

/-- The raw bytes of the configuration that stand inside a frame of LMFC or are compared with a byte inside one. -/
def Config.rawBytes (c : Config) : Bytes :=
  [c.errmark, c.cmdOp, c.initClass, c.initSub, c.countClass, c.countSub, c.countOption, c.retryCount,
    c.initRspHdr.1, c.initRspHdr.2, c.countRspHdr.1, c.countRspHdr.2]

/-- The facts of a configuration that the spec derives from the values of its constants. [log 23] -/
structure Config.WF (c : Config) : Prop where
  /-- FRAME_MAX is at least 52 (R8), -/
  frameMax : 52 ≤ c.frameMax
  /-- and holds a decodable Count response (R8, R243). -/
  room : c.countRspMin ≤ c.frameMax
  /-- The ten digit codes fit in seven bits (R168). -/
  digits : c.digitBase.toNat + 9 ≤ 127
  /-- D(REJECT_THRESHOLD) is defined (R165). -/
  threshold : c.rejectThreshold ≤ COUNT_MAX
  /-- TERM is not a well-formed protected byte (R93). -/
  termRaw : parityOk c.term = false
  /-- ERRMARK passes the parity check (R135). -/
  markParity : parityOk c.errmark = true
  /-- TERM is no raw byte of a command (R183 f), not ERRMARK and no header byte (their values in R7). -/
  termApart : c.term ∉ c.rawBytes

/-- A sequence of data bytes: no byte of it is TERM (R96, R143 I3). -/
abbrev DataBytes (cfg : Config) (bs : Bytes) : Prop := cfg.term ∉ bs

/-- A delivered frame (R44, R143 I4): at least one byte, TERM last and nowhere else. -/
abbrev IsFrame (cfg : Config) (f : Bytes) : Prop := (openFrame cfg f).isSome = true

/-- The operand conditions of each row, checked. -/
def wellFormed (cfg : Config) : Instr → Bool
  | .protbyte p v => decide (p = par7 v)
  | .digit p d => decide (d.toNat ≤ 9 ∧ p = par7 (digitCode cfg d.toNat))
  | .cmdCount c1 c2 => decide (c1 ≤ COUNT_MAX ∧ c2 ≤ COUNT_MAX)
  | .rspDeverr body => decide (DataBytes cfg body)
  | .rspInit marker body => decide (marker ≠ cfg.errmark ∧ DataBytes cfg (marker :: body))
  | .rspCount marker body => decide (marker ≠ cfg.errmark ∧ DataBytes cfg (marker :: body))
  | .rspMismatch data => decide (isDeviceError cfg data = false ∧ DataBytes cfg data)
  | .rspIgnored data => decide (DataBytes cfg data)
  | .issueCount c1 c2 => decide (c1 ≤ COUNT_MAX ∧ c2 ≤ COUNT_MAX)
  | .classify f => decide (IsFrame cfg f)
  | .encCount c1 c2 => decide (c1 ≤ COUNT_MAX ∧ c2 ≤ COUNT_MAX)
  | .decInit f => decide (IsFrame cfg f ∧ decodable cfg .kInit f = true)
  | .decCount f => decide (IsFrame cfg f ∧ decodable cfg .kCount f = true)
  | .dpenc n => decide (n ≤ COUNT_MAX)
  | .term => true
  | .cmdInit _ _ _ _ => true
  | .nop => true
  | .issueInit _ _ _ _ => true
  | .codecReset => true
  | .feed _ => true
  | .txpop => true
  | .reset => true
  | .sessionConsume _ => true
  | .complete _ => true
  | .fold => true
  | .linkErrorCompletion _ => true
  | .formatFailCompletion => true
  | .busy => true
  | .encInit _ _ _ _ => true
  | .dpdec _ _ => true
  | .par7 _ => true
  | .prot _ => true
  | .parityOk _ => true
  | .protectedAt _ => true

/-- The operation is well formed. -/
abbrev WellFormed (cfg : Config) (i : Instr) : Prop := wellFormed cfg i = true

end Sys2Proof
end

