-- ==== Sys2Proof/Decode.lean ====
section
/-!
DEFINITION. The decoder, from a port word to an operation in the block's context (spec/45_host_interface.md R260,
spec/30_encoding.md R110, R111, R118), the encoder back, and how a word of spec/opcode_table.json is laid on a port.
-/
namespace Sys2Proof

open Sys2Proof.Machine

/-- What a decoder answers. -/
abbrev Decoded := Except DecodeError Instr

/-- A byte on the wire: TERM, a protected digit, another protected byte, or a raw byte, which has no format of its own
and is only fed (R90 to R94, R17). [log 9, log 22] -/
def decodeByte (cfg : Config) (b : Byte) : Instr :=
  if b = cfg.term then .term
  else if !parityOk b then .feed b
  else
    match digitOf cfg b with
    | some d => .digit (bit7 b) (BitVec.ofNat 4 d)
    | none => .protbyte (bit7 b) (low7 b)

/-- A host command (R118); the lanes an operation ignores are not looked at. -/
def decodeHost (op : BitVec 2) (a b c d : Byte) : Decoded :=
  if op = 0 then .ok .nop
  else if op = 1 then .ok (.issueInit a b c d)
  else if op = 2 then
    if inRange a.toNat && inRange b.toNat then .ok (.issueCount a.toNat b.toNat) else .error .operandRange
  else .ok .codecReset

/-- A response's row while a request of kind `k` is outstanding: marker, expected header, anything else (R111). -/
def decodeResponse (cfg : Config) (k : Kind) (data : Bytes) : Instr :=
  match data with
  | [] => .rspMismatch []
  | m :: rest =>
    if m = cfg.errmark then .rspDeverr rest
    else
      match rest with
      | h0 :: h1 :: body =>
        if h0 = (expHeader cfg k).1 ∧ h1 = (expHeader cfg k).2 then
          match k with
          | .kInit => .rspInit m body
          | .kCount => .rspCount m body
        else .rspMismatch data
      | _ => .rspMismatch data

/-- A frame from the device, in context (R111, R209). -/
def decodeFromDevice (cfg : Config) (out : Option Kind) (f : Bytes) : Decoded :=
  match openFrame cfg f with
  | none => .error .notAFrame
  | some data =>
    match out with
    | none => .ok (.rspIgnored data)
    | some k => .ok (decodeResponse cfg k data)

/-- The value of the digit pair at offset `off` of a command; both bytes must be protected digits (R95). -/
def commandPair (cfg : Config) (f : Bytes) (off : Nat) : Option Nat :=
  match f[off]?, f[off + 1]? with
  | some hi, some lo => if parityOk hi && parityOk lo then dpdec cfg hi lo else none
  | _, _ => none

/-- A frame to the device: one of the two command layouts, every constant byte in its place (R100, R101, R110). -/
def decodeToDevice (cfg : Config) (f : Bytes) : Decoded :=
  match f[3]?, f[4]?, f[5]?, f[10]? with
  | some o, some t, some b, some k =>
    if f = encInit cfg o t b k then .ok (.cmdInit o t b k)
    else
      match commandPair cfg f 4, commandPair cfg f 6 with
      | some c1, some c2 => if f = encCount cfg c1 c2 then .ok (.cmdCount c1 c2) else .error .notACommand
      | _, _ => .error .notACommand
  | _, _, _, _ => .error .notACommand

/-- The decoder. -/
def decode (ctx : Ctx) : PortWord → Decoded
  | .receive true b => .ok (.feed b)
  | .receive false _ => .error .portIdle
  | .transmit ready => if ready && ctx.txValid then .ok .txpop else .error .portIdle
  | .hostCommand op a b c d => decodeHost op a b c d
  | .resetPin true => .ok .reset
  | .resetPin false => .error .portIdle
  | .wireByte b => .ok (decodeByte ctx.cfg b)
  | .fromDevice f => decodeFromDevice ctx.cfg ctx.outstanding f
  | .toDevice f => decodeToDevice ctx.cfg f

/-! The encoder. -/

/-- The word of an operation; `none` for the internal micro-operations, which have no encoding. Ignored lanes are 0. -/
def encode (cfg : Config) : Instr → Option PortWord
  | .protbyte p v => some (.wireByte (joinByte p v))
  | .digit p d => some (.wireByte (joinByte p (digitCode cfg d.toNat)))
  | .term => some (.wireByte cfg.term)
  | .cmdInit o t b k => some (.toDevice (encInit cfg o t b k))
  | .cmdCount c1 c2 => some (.toDevice (encCount cfg c1 c2))
  | .rspDeverr body => some (.fromDevice (deverrFrame cfg body))
  | .rspInit m body => some (.fromDevice (headedFrame cfg .kInit m body))
  | .rspCount m body => some (.fromDevice (headedFrame cfg .kCount m body))
  | .rspMismatch data => some (.fromDevice (close cfg data))
  | .rspIgnored data => some (.fromDevice (close cfg data))
  | .nop => some (.hostCommand 0 0 0 0 0)
  | .issueInit o t b k => some (.hostCommand 1 o t b k)
  | .issueCount c1 c2 => some (.hostCommand 2 (BitVec.ofNat 8 c1) (BitVec.ofNat 8 c2) 0 0)
  | .codecReset => some (.hostCommand 3 0 0 0 0)
  | .feed b => some (.receive true b)
  | .txpop => some (.transmit true)
  | .reset => some (.resetPin true)
  | .sessionConsume _ => none
  | .classify _ => none
  | .complete _ => none
  | .fold => none
  | .linkErrorCompletion _ => none
  | .formatFailCompletion => none
  | .busy => none
  | .encInit _ _ _ _ => none
  | .encCount _ _ => none
  | .decInit _ => none
  | .decCount _ => none
  | .dpenc _ => none
  | .dpdec _ _ => none
  | .par7 _ => none
  | .prot _ => none
  | .parityOk _ => none
  | .protectedAt _ => none

/-- The context a row of the table stands in (its "context", R111; TXPOP's tx_valid), and for PROTBYTE that its byte is
no digit, which is the row DIGIT's. -/
def inContext (ctx : Ctx) : Instr → Bool
  | .protbyte _ v => (digitOf ctx.cfg (joinByte false v)).isNone
  | .rspDeverr _ => ctx.outstanding.isSome
  | .rspInit _ _ => ctx.outstanding == some .kInit
  | .rspCount _ _ => ctx.outstanding == some .kCount
  | .rspMismatch data => ctx.outstanding.any fun k => !headerMatches ctx.cfg k data
  | .rspIgnored _ => ctx.outstanding.isNone
  | .txpop => ctx.txValid
  | .digit _ _ => true
  | .term => true
  | .cmdInit _ _ _ _ => true
  | .cmdCount _ _ => true
  | .nop => true
  | .issueInit _ _ _ _ => true
  | .issueCount _ _ => true
  | .codecReset => true
  | .feed _ => true
  | .reset => true
  | .sessionConsume _ => true
  | .classify _ => true
  | .complete _ => true
  | .fold => true
  | .linkErrorCompletion _ => true
  | .formatFailCompletion => true
  | .busy => true
  | .encInit _ _ _ _ => true
  | .encCount _ _ => true
  | .decInit _ => true
  | .decCount _ => true
  | .dpenc _ => true
  | .dpdec _ _ => true
  | .par7 _ => true
  | .prot _ => true
  | .parityOk _ => true
  | .protectedAt _ => true

/-! A word of spec/opcode_table.json on its port. [log 12] -/

/-- The byte of `w` whose bits are `8 * i + 7` down to `8 * i`. -/
def tableByte (w i : Nat) : Byte := BitVec.ofNat 8 (w / 2 ^ (8 * i))

/-- The port word, and the context the row stands in, of the table's word `w` of `nbits` bits. The table's match number has
the byte at the lowest offset as its most significant byte. Operand bytes are zero (a count is D(0)); the constant
bytes that a layout fixes after the matched ones stand as the layout gives them. -/
def tableWord (cfg : Config) (nbits w : Nat) : PortWord × Ctx :=
  if nbits ≤ 8 then
    let b := tableByte w 0
    if b.toNat < 4 then (.hostCommand (BitVec.ofNat 2 b.toNat) 0 0 0 0, ⟨cfg, none, false⟩)
    else if b = cfg.errmark then (.fromDevice (close cfg [b]), ⟨cfg, some .kInit, false⟩)
    else (.wireByte b, ⟨cfg, none, false⟩)
  else if nbits ≤ 16 then
    let f := [0, tableByte w 1, tableByte w 0]
    (.fromDevice (close cfg f), ⟨cfg, some (if headerMatches cfg .kCount f then .kCount else .kInit), false⟩)
  else if nbits ≤ 24 then
    (.toDevice ([tableByte w 2, tableByte w 1, tableByte w 0] ++ (encInit cfg 0 0 0 0).drop 3), ⟨cfg, none, false⟩)
  else
    (.toDevice ([tableByte w 3, tableByte w 2, tableByte w 1, tableByte w 0] ++ (encCount cfg 0 0).drop 4), ⟨cfg, none, false⟩)

/-- The operation the decoder reads from a word of the table, under the spec's configuration. -/
def decodeTableWord (nbits w : Nat) : Option Instr :=
  match decode (tableWord Config.default nbits w).2 (tableWord Config.default nbits w).1 with
  | .ok i => some i
  | .error _ => none

end Sys2Proof
end

