-- ==== Sys2Proof/Machine/Fetch.lean ====
section
/-!
DEFINITION. Taking the next offered port word: LMFC fetches no instructions (spec/20_memory.md R82); what selects its next
operation is what its environment offers on its ports (spec/45_host_interface.md R260 to R263). [log 4]
-/
namespace Sys2Proof.Machine

open Sys2Proof

/-- The context the block decodes in: the configuration (R21), the outstanding request (R111) and tx_valid (R260). -/
def ctxOf (s : State) : Ctx where
  cfg := s.cfg
  outstanding := if s.sstate = .awaitingResponse then some s.pendKind else none
  txValid := txPending s

/-- What the ports select. -/
inductive Fetched where
  /-- No operation: nothing is offered, or the port is idle; the block is left as it is (R118, R305). -/
  | noStep (s : State)
  /-- The operation, and the state with its word taken. -/
  | operation (i : Instr) (s : State)
  /-- The word is no operation. -/
  | rejected (e : DecodeError)

/-- What a decoded word selects. -/
def select (d : Decoded) (s : State) : Fetched :=
  match d with
  | .ok i => .operation i s
  | .error .portIdle => .noStep (beginStep s)
  | .error e => .rejected e

/-- Take the first offered word and decode it in the block's context. -/
def fetch (s : State) : Fetched :=
  match s.inputs with
  | [] => .noStep (beginStep s)
  | w :: rest => select (decode (ctxOf s) w) { s with inputs := rest }

/-- Put the block in the context a response row stands in: a request of kind `k` outstanding (R111). [log 12] -/
def awaiting (k : Kind) (s : State) : State :=
  { s with sstate := .awaitingResponse, pendKind := k, protSel := selOf k }

/-- Offer a word of spec/opcode_table.json first, in the context its row stands in. [log 12] -/
def placeWord (s : State) (nbits w : Nat) : State :=
  let p := tableWord s.cfg nbits w
  let t := { s with inputs := p.1 :: s.inputs }
  match p.2.outstanding with
  | some k => awaiting k t
  | none => t

end Sys2Proof.Machine
end

