-- ==== Sys2Proof/Machine/Step.lean ====
section
/-!
DEFINITION. One step of the machine: the next operation its ports select (spec/00_scope.md R13, spec/45_host_interface.md R261).
-/
namespace Sys2Proof.Machine

open Sys2Proof

/-- One step. -/
def step (s : State) : Host.Outcome State Fault Refusal :=
  match fetch s with
  | .noStep t => .next t
  | .operation i t => exec i t
  | .rejected e => .refused (.undecodable e)

/-- The state with a word of spec/opcode_table.json offered as its next operation. [log 12] -/
def State.withFetchWord (s : State) (nbits w : Nat) : State := placeWord s nbits w

end Sys2Proof.Machine
end

