-- ==== Sys2Proof/Safety.lean ====
section
/-!
DEFINITION. What holds of every safe state of LMFC, in the terms the statements use: the invariants of the codec
(spec/40_frame_codec.md R143), of the session (spec/43_session.md R220, spec/10_state.md R26, R31) and of the result
registers (spec/10_state.md R35, R36, R38).
-/
namespace Sys2Proof

open Sys2Proof.Machine

/-- The codec's invariants (R143 I1 to I3), with the configuration well formed (R8, U17). -/
structure CodecInv (s : State) : Prop where
  config : s.cfg.WF
  dropEmpty : s.rxMode = .drop → s.rxBuf = []
  bounded : s.rxLen ≤ s.cfg.frameMax - 1
  noTerm : DataBytes s.cfg s.rxBuf

/-- The session's invariants: SSTATE is Idle or AwaitingResponse at every step boundary (R30, R220), and while a request is
outstanding PROTSEL is the one its ISSUE wrote (R26, R201, R202). -/
structure SessionInv (s : State) : Prop where
  boundary : s.sstate = .idle ∨ s.sstate = .awaitingResponse
  protSel : s.sstate = .awaitingResponse → s.protSel = selOf s.pendKind

/-- The result registers' invariants: the counts' range (R20, R36), the codes RES_ERR can hold (R280: never E_BUSY, never
E_TRANSPORT), RES_OK exactly on success, E_FORMAT only of a Count (R217), and RAWFRAME empty or a whole frame that
begins with the error marker (R38, R213). -/
structure ResultInv (s : State) : Prop where
  acc1 : s.acc1.toNat ≤ COUNT_MAX
  acc2 : s.acc2.toNat ≤ COUNT_MAX
  rej1 : s.rej1.toNat ≤ COUNT_MAX
  rej2 : s.rej2.toNat ≤ COUNT_MAX
  noBusy : s.resErr ≠ .eBusy
  noTransport : s.resErr ≠ .eTransport
  invalid : s.resValid = false → s.resOk = false ∧ s.resErr = .eNone
  success : s.resValid = true → (s.resOk = true ↔ s.resErr = .eNone)
  format : s.resErr = .eFormat → s.resKind = .kCount
  raw : s.rawFrame = [] ∨ (IsFrame s.cfg s.rawFrame ∧ isDeviceError s.cfg s.rawFrame = true ∧ s.rawLen ≤ s.cfg.frameMax)

/-- The invariant of the machine. -/
structure Inv (s : State) : Prop where
  codec : CodecInv s
  session : SessionInv s
  results : ResultInv s

/-! Premises the statements share. -/

/-- Every byte of `data`, fed as the first bytes of a frame, passes the codec's parity check: PROTMAP does not hold at
its offset, or the frame is exempt (R132, R135), or its parity is right (R162). -/
def PassesCheck (s : State) (data : Bytes) : Prop :=
  ∀ off b, data[off]? = some b → protMap s.cfg s.protSel off = true →
    (1 ≤ off ∧ isDeviceError s.cfg data = true) ∨ parityOk b = true

/-- The codec stands at the start of a frame that `data` and a terminator will make: it assembles, nothing is stored,
`data` holds no terminator, the frame fits in FRAME_MAX and passes the check. -/
structure FrameArrives (s : State) (data : Bytes) : Prop where
  assemble : s.rxMode = .assemble
  empty : s.rxBuf = []
  noTerm : DataBytes s.cfg data
  fits : data.length + 1 ≤ s.cfg.frameMax
  passes : PassesCheck s data

/-- The Completion events among a step's events (R44). -/
def completions (evs : List Event) : List Completion :=
  evs.filterMap fun e => match e with
    | .completion c => some c
    | .linkStatus _ => none
    | .frame _ => none
    | .issueOutcome _ => none
    | .txByte _ => none

/-- The bytes a step puts on the link (R44). -/
def txBytes (evs : List Event) : Bytes :=
  evs.filterMap fun e => match e with
    | .txByte b => some b
    | .linkStatus _ => none
    | .frame _ => none
    | .issueOutcome _ => none
    | .completion _ => none

/-- The codec's own events among a step's events, LinkStatus and Frame (R44). -/
def linkEvents (evs : List Event) : List Event :=
  evs.filter fun e => match e with
    | .linkStatus _ => true
    | .frame _ => true
    | .issueOutcome _ => false
    | .completion _ => false
    | .txByte _ => false

/-- The operations that feed bytes to the codec: FEED, the wire bytes and the response frames. -/
def feedsCodec : Instr → Bool
  | .protbyte _ _ => true
  | .digit _ _ => true
  | .term => true
  | .rspDeverr _ => true
  | .rspInit _ _ => true
  | .rspCount _ _ => true
  | .rspMismatch _ => true
  | .rspIgnored _ => true
  | .feed _ => true
  | _ => false

/-- The two ISSUE operations. -/
def isIssue : Instr → Bool
  | .issueInit _ _ _ _ => true
  | .issueCount _ _ => true
  | _ => false

/-- What an operation appends to TXQ: an accepted ISSUE TX_COPIES copies of its command, every other nothing (R203, R226). -/
def enqueued (i : Instr) (s : State) : Bytes :=
  match i with
  | .issueInit o t b k => if s.sstate = .idle then (List.replicate s.cfg.txCopies (encInit s.cfg o t b k)).flatten else []
  | .issueCount c1 c2 => if s.sstate = .idle then (List.replicate s.cfg.txCopies (encCount s.cfg c1 c2)).flatten else []
  | _ => []

/-- Two states that agree on everything but LSTAT, the result registers and RAWFRAME, and but PEND_KIND when no request
is outstanding: what no operation selected by a port reads (R27, R31, R35, R36, R321). -/
structure SameButUnread (s t : State) : Prop where
  eq : t = { s with
    lstat := t.lstat, resValid := t.resValid, resOk := t.resOk, resErr := t.resErr, resKind := t.resKind,
    acc1 := t.acc1, acc2 := t.acc2, rej1 := t.rej1, rej2 := t.rej2, rawFrame := t.rawFrame, pendKind := t.pendKind }
  pend : s.sstate = .awaitingResponse → t.pendKind = s.pendKind

end Sys2Proof
end

