-- ==== Sys2Proof/Certificates/Slice0/Obligations.lean ====
section
/-!
DEFINITION. The statements about LMFC that the provers are given. A statement whose conclusion is `exec i s = .next …` with a
record of `s` gives the whole next state: every field not written in the record is unchanged (the frame). The fields
`events`, `result` and `inputs` are the model's own (log 2, log 3, log 4). The constants of R7 are the fields of `s.cfg`, any
configuration; a clause that needs the spec's values says `s.cfg = Config.default` (the values: ConfigDefaultHasTheSpecValues).
-/

open Sys2Proof Sys2Proof.Machine

/-! Reset. -/

/-- R320, R20: the values the spec gives for reset. PEND_KIND, RES_KIND and the counts have none and are not stated (log 5). -/
def Obligations.ResetStateHasTheSpecValues : Prop :=
  State.reset.sstate = .idle ∧ State.reset.txq = [] ∧ State.reset.rxMode = .assemble ∧ State.reset.rxLen = 0 ∧
  State.reset.protSel = .psNone ∧ State.reset.lstat = .lsNone ∧ State.reset.resValid = false ∧
  State.reset.resOk = false ∧ State.reset.resErr = .eNone ∧ State.reset.rawLen = 0

/-- R320, R322: RESET in every state; no event, so no Completion; what is unspecified after it is left free. -/
def Obligations.ResetOperationClearsTheBlock : Prop :=
  ∀ s : State, ∃ t, exec .reset s = .next t ∧ t.events = [] ∧
    t.sstate = .idle ∧ t.txq = [] ∧ t.rxMode = .assemble ∧ t.rxLen = 0 ∧ t.protSel = .psNone ∧ t.lstat = .lsNone ∧
    t.resValid = false ∧ t.resOk = false ∧ t.resErr = .eNone ∧ t.rawLen = 0 ∧
    t.cfg = s.cfg ∧ t.inputs = s.inputs

/-! FEED, case by case. -/

/-- R133: in DROP only TERM does anything, and it emits nothing. -/
def Obligations.FeedInDropDiscards : Prop :=
  ∀ (s : State) (b : Byte), s.rxMode = .drop →
    exec (.feed b) s = .next { s with
      rxMode := if b = s.cfg.term then .assemble else .drop, events := [], result := none }

/-- R134: TERM in ASSEMBLE completes the frame, at every offset and whatever PROTSEL is; only Completions may follow. -/
def Obligations.FeedTermCompletesTheFrame : Prop :=
  ∀ s : State, s.rxMode = .assemble →
    ∃ t rest, exec (.feed s.cfg.term) s = .next t ∧
      t.events = .linkStatus .ok :: .frame (s.rxBuf ++ [s.cfg.term]) :: rest ∧ linkEvents rest = [] ∧
      t.rxBuf = [] ∧ t.rxMode = .assemble ∧ t.lstat = .lsOk ∧
      t.protSel = s.protSel ∧ t.pendKind = s.pendKind ∧ t.txq = s.txq ∧ t.cfg = s.cfg ∧ t.inputs = s.inputs

/-- R137, R212: overflow, with no request outstanding and with one. -/
def Obligations.FeedOverflowDropsTheFrame : Prop :=
  ∀ (s : State) (b : Byte), s.rxMode = .assemble → b ≠ s.cfg.term → s.rxLen = s.cfg.frameMax - 1 →
    (s.sstate ≠ .awaitingResponse →
      exec (.feed b) s = .next { s with
        rxBuf := [], rxMode := .drop, lstat := .lsOverflow,
        events := [.linkStatus (.err .overflow)], result := none }) ∧
    (s.sstate = .awaitingResponse →
      exec (.feed b) s = .next { s with
        rxBuf := [], rxMode := .drop, lstat := .lsOverflow, sstate := .idle,
        resValid := true, resOk := false, resErr := .eLinkOverflow, resKind := s.pendKind,
        events := [.linkStatus (.err .overflow),
          .completion ⟨.errored, s.pendKind, false, .eLinkOverflow, none, none⟩], result := none })

/-- R136, R212: a parity failure, with no request outstanding and with one. -/
def Obligations.FeedParityFailureDropsTheFrame : Prop :=
  ∀ (s : State) (b : Byte), s.rxMode = .assemble → b ≠ s.cfg.term → s.rxLen < s.cfg.frameMax - 1 →
    isProtected s s.rxLen = true → b.getLsbD 7 ≠ par7 (b.setWidth 7) →
    (s.sstate ≠ .awaitingResponse →
      exec (.feed b) s = .next { s with
        rxBuf := [], rxMode := .drop, lstat := .lsParity,
        events := [.linkStatus (.err .parity)], result := none }) ∧
    (s.sstate = .awaitingResponse →
      exec (.feed b) s = .next { s with
        rxBuf := [], rxMode := .drop, lstat := .lsParity, sstate := .idle,
        resValid := true, resOk := false, resErr := .eLinkParity, resKind := s.pendKind,
        events := [.linkStatus (.err .parity),
          .completion ⟨.errored, s.pendKind, false, .eLinkParity, none, none⟩], result := none })

/-- R138: the byte is stored unchanged, and nothing else happens. -/
def Obligations.FeedStoresTheByte : Prop :=
  ∀ (s : State) (b : Byte), s.rxMode = .assemble → b ≠ s.cfg.term → s.rxLen ≠ s.cfg.frameMax - 1 →
    (isProtected s s.rxLen = true → parityOk b = true) →
    exec (.feed b) s = .next { s with rxBuf := s.rxBuf ++ [b], events := [], result := none }

/-- R130, R45, R143 I4: FEED answers in every state with one of five shapes of event list, and a delivered frame is well
formed from every state that meets the codec's invariants. -/
def Obligations.FeedEmitsOneOfFiveShapes : Prop :=
  ∀ (s : State) (b : Byte), ∃ t, exec (.feed b) s = .next t ∧
    (t.events = [] ∨
     (∃ e, t.events = [.linkStatus (.err e)]) ∨
     (∃ e c, t.events = [.linkStatus (.err e), .completion c]) ∨
     t.events = [.linkStatus .ok, .frame (s.rxBuf ++ [s.cfg.term])] ∨
     (∃ c, t.events = [.linkStatus .ok, .frame (s.rxBuf ++ [s.cfg.term]), .completion c])) ∧
    (CodecInv s → ∀ f, .frame f ∈ t.events → IsFrame s.cfg f ∧ 1 ≤ f.length ∧ f.length ≤ s.cfg.frameMax)

/-- R209, R291: with no request outstanding no fed byte changes the session or a result register, and none completes. -/
def Obligations.FeedWithoutRequestIsIgnoredByTheSession : Prop :=
  ∀ (s : State) (b : Byte), s.sstate ≠ .awaitingResponse →
    ∃ t, exec (.feed b) s = .next t ∧ completions t.events = [] ∧
      t = { s with rxMode := t.rxMode, rxBuf := t.rxBuf, lstat := t.lstat, events := t.events, result := none }

/-- R145: the codec does not consult the session; its part of a FEED depends on the codec's state and the configuration alone. -/
def Obligations.CodecDoesNotConsultTheSession : Prop :=
  ∀ (s u : State) (b : Byte), s.rxMode = u.rxMode → s.rxBuf = u.rxBuf → s.protSel = u.protSel → s.lstat = u.lstat →
    s.cfg = u.cfg →
    ∃ t v, exec (.feed b) s = .next t ∧ exec (.feed b) u = .next v ∧
      t.rxMode = v.rxMode ∧ t.rxBuf = v.rxBuf ∧ t.protSel = v.protSel ∧ t.lstat = v.lstat ∧
      linkEvents t.events = linkEvents v.events

/-! The session on a delivered frame. -/

/-- R13, R208: the TERM that completes a frame while a request is outstanding runs CLASSIFY on that frame, after the codec. -/
def Obligations.FeedTermClassifiesTheFrame : Prop :=
  ∀ s : State, s.rxMode = .assemble → s.sstate = .awaitingResponse →
    ∃ t, exec (.classify (s.rxBuf ++ [s.cfg.term])) { s with rxBuf := [], lstat := .lsOk } = .next t ∧
      exec (.feed s.cfg.term) s = .next { t with
        events := [.linkStatus .ok, .frame (s.rxBuf ++ [s.cfg.term])] ++ t.events }

/-- R213: the marker at offset 0 is a DeviceError, whatever follows and whatever is outstanding. -/
def Obligations.ClassifyDeviceError : Prop :=
  ∀ (s : State) (f : Bytes), s.sstate = .awaitingResponse → f.head? = some s.cfg.errmark →
    exec (.classify f) s = .next { s with
      sstate := .idle, resValid := true, resOk := false, resErr := .eDevice, resKind := s.pendKind, rawFrame := f,
      events := [.completion ⟨.errored, s.pendKind, false, .eDevice, none, some f⟩], result := none }

/-- R214: no marker, and the two header bytes are not both the expected ones. -/
def Obligations.ClassifyHeaderMismatch : Prop :=
  ∀ (s : State) (f : Bytes), s.sstate = .awaitingResponse → f ≠ [] → f.head? ≠ some s.cfg.errmark →
    (f.length < 3 ∨ f[1]? ≠ some (expHeader s.cfg s.pendKind).1 ∨ f[2]? ≠ some (expHeader s.cfg s.pendKind).2) →
    exec (.classify f) s = .next { s with
      sstate := .idle, resValid := true, resOk := false, resErr := .eHeaderMismatch, resKind := s.pendKind,
      events := [.completion ⟨.errored, s.pendKind, false, .eHeaderMismatch, none, none⟩], result := none }

/-- R215: an Initialize response. -/
def Obligations.ClassifyInitializeSuccess : Prop :=
  ∀ (s : State) (f : Bytes), s.sstate = .awaitingResponse → s.pendKind = .kInit → f.head? ≠ some s.cfg.errmark →
    3 ≤ f.length → f[1]? = some s.cfg.initRspHdr.1 → f[2]? = some s.cfg.initRspHdr.2 →
    exec (.classify f) s = .next { s with
      sstate := .idle, resValid := true, resOk := true, resErr := .eNone, resKind := .kInit,
      events := [.completion ⟨.responded, .kInit, true, .eNone, none, none⟩], result := none }

/-- R216: a Count response that decodes; the four registers hold the four numbers. -/
def Obligations.ClassifyCountSuccess : Prop :=
  ∀ (s : State) (f : Bytes) (c : Counts), s.sstate = .awaitingResponse → s.pendKind = .kCount →
    f.head? ≠ some s.cfg.errmark → f[1]? = some s.cfg.countRspHdr.1 →
    f[2]? = some s.cfg.countRspHdr.2 → decCount s.cfg f = some c →
    ∃ t, exec (.classify f) s = .next t ∧
      t.acc1.toNat = c.acc1 ∧ t.acc2.toNat = c.acc2 ∧ t.rej1.toNat = c.rej1 ∧ t.rej2.toNat = c.rej2 ∧
      t = { s with
        acc1 := t.acc1, acc2 := t.acc2, rej1 := t.rej1, rej2 := t.rej2,
        sstate := .idle, resValid := true, resOk := true, resErr := .eNone, resKind := .kCount,
        events := [.completion ⟨.responded, .kCount, true, .eNone, some c, none⟩], result := none }

/-- R217: a Count response whose header matches and that does not decode. -/
def Obligations.ClassifyFormatFailure : Prop :=
  ∀ (s : State) (f : Bytes), s.sstate = .awaitingResponse → s.pendKind = .kCount →
    f.head? ≠ some s.cfg.errmark → f[1]? = some s.cfg.countRspHdr.1 →
    f[2]? = some s.cfg.countRspHdr.2 → decCount s.cfg f = none →
    exec (.classify f) s = .next { s with
      sstate := .idle, resValid := true, resOk := false, resErr := .eFormat, resKind := .kCount,
      events := [.completion ⟨.responded, .kCount, false, .eFormat, none, none⟩], result := none }

/-- R211: CLASSIFY runs only in AwaitingResponse and on a frame, which has a byte at offset 0 (the refusals are log 13's). -/
def Obligations.ClassifyRunsOnlyOnAFrameOfARequest : Prop :=
  (∀ (s : State) (f : Bytes), s.sstate ≠ .awaitingResponse → exec (.classify f) s = .refused .noRequest) ∧
  (∀ s : State, s.sstate = .awaitingResponse → exec (.classify []) s = .refused .emptyFrame)

/-- R208, R209, R219: the first event that is no LS_OK status decides; without a request every event is ignored. -/
def Obligations.SessionConsumesEventsInOrder : Prop :=
  (∀ (s : State) (evs : List CodecEvent), s.sstate ≠ .awaitingResponse →
    exec (.sessionConsume evs) s = .next { s with events := [], result := none }) ∧
  (∀ (s : State) (n : Nat),
    exec (.sessionConsume (List.replicate n (.linkStatus .ok))) s = .next { s with events := [], result := none }) ∧
  (∀ (s : State) (n : Nat) (e : LinkErr) (rest : List CodecEvent), s.sstate = .awaitingResponse →
    ∃ t, exec (.linkErrorCompletion e) s = .next t ∧
      exec (.sessionConsume (List.replicate n (.linkStatus .ok) ++ .linkStatus (.err e) :: rest)) s = .next t) ∧
  (∀ (s : State) (n : Nat) (f : Bytes) (rest : List CodecEvent), s.sstate = .awaitingResponse → f ≠ [] →
    ∃ t, exec (.classify f) s = .next t ∧
      exec (.sessionConsume (List.replicate n (.linkStatus .ok) ++ .frame f :: rest)) s = .next t)

/-- R218: COMPLETE, for every outcome of R212 to R217 that the outstanding command has; while Idle there is none (R266).
Counts and raw bytes that no rule gives are taken too (log 26). -/
def Obligations.CompleteEndsTheRequestOnce : Prop :=
  (∀ (s : State) (r : Resolution), s.sstate ≠ .idle → fitsKind r s.pendKind = true →
    exec (.complete r) s = .next { s with
      resValid := true, resOk := okOf r, resErr := errOf r, resKind := s.pendKind, sstate := .idle,
      events := [.completion ⟨viaOf r, s.pendKind, okOf r, errOf r, resultOf r, rawOf r⟩], result := none }) ∧
  (∀ (s : State) (r : Resolution), s.sstate = .idle → exec (.complete r) s = .refused .noRequest)

/-- R220, R221, R222: FOLD leaves a transient state for Idle; it cannot cancel a request (the refusal is log 13's, FOLD while
Idle log 26's). -/
def Obligations.FoldReturnsToIdle : Prop :=
  (∀ s : State, s.sstate ≠ .awaitingResponse →
    exec .fold s = .next { s with sstate := .idle, events := [], result := none }) ∧
  (∀ s : State, s.sstate = .awaitingResponse → exec .fold s = .refused .wouldCancel)

/-- R212: both link errors; the codec is not touched, so it stays in DROP. -/
def Obligations.LinkErrorFailsTheRequest : Prop :=
  ∀ (s : State), s.sstate = .awaitingResponse →
    (exec (.linkErrorCompletion .parity) s = .next { s with
      sstate := .idle, resValid := true, resOk := false, resErr := .eLinkParity, resKind := s.pendKind,
      events := [.completion ⟨.errored, s.pendKind, false, .eLinkParity, none, none⟩], result := none }) ∧
    (exec (.linkErrorCompletion .overflow) s = .next { s with
      sstate := .idle, resValid := true, resOk := false, resErr := .eLinkOverflow, resKind := s.pendKind,
      events := [.completion ⟨.errored, s.pendKind, false, .eLinkOverflow, none, none⟩], result := none })

/-- R217: the outcome E_FORMAT on its own, while a Count is outstanding (SSTATE is Responded when CLASSIFY runs it). -/
def Obligations.FormatFailCompletesACount : Prop :=
  ∀ s : State, s.sstate ≠ .idle → s.pendKind = .kCount →
    exec .formatFailCompletion s = .next { s with
      sstate := .idle, resValid := true, resOk := false, resErr := .eFormat, resKind := .kCount,
      events := [.completion ⟨.responded, .kCount, false, .eFormat, none, none⟩], result := none }

/-! The wire formats. -/

/-- R90, R94, R92 with R131: a wire byte of each format is FEED of the byte its bits make (that it is fed is log 9's,
and that a DIGIT operand of 10 to 15, for which R94 gives no code, is fed too is log 25's). -/
def Obligations.WireBytesAreFed : Prop :=
  (∀ (s : State) (p : Bool) (v : Val7), ∃ (b : Byte) (t : State), b.toNat = p.toNat * 128 + v.toNat ∧
    exec (.feed b) s = .next t ∧ exec (.protbyte p v) s = .next t) ∧
  (∀ (s : State) (p : Bool) (d : BitVec 4), ∃ (b : Byte) (t : State),
    b.toNat = p.toNat * 128 + (s.cfg.digitBase.toNat + d.toNat) % 128 ∧
    exec (.feed b) s = .next t ∧ exec (.digit p d) s = .next t) ∧
  (∀ s : State, ∃ t, exec (.feed s.cfg.term) s = .next t ∧ exec .term s = .next t)

/-- R121, R103 to R106, R112: a response frame is FEEDS of its bytes in order, and the event list is the concatenation (that
the whole frame is one operation is log 10's, and that bytes outside a row's format are fed too is log 26's). -/
def Obligations.ResponseFramesAreFedByteByByte : Prop :=
  (∀ s : State, exec (.rspIgnored []) s = exec (.feed s.cfg.term) s) ∧
  (∀ (s : State) (b : Byte) (data : Bytes), ∃ t u,
    exec (.feed b) s = .next t ∧ exec (.rspIgnored data) t = .next u ∧
    exec (.rspIgnored (b :: data)) s = .next { u with events := t.events ++ u.events }) ∧
  (∀ (s : State) (data : Bytes), exec (.rspMismatch data) s = exec (.rspIgnored data) s) ∧
  (∀ (s : State) (body : Bytes), exec (.rspDeverr body) s = exec (.rspIgnored (s.cfg.errmark :: body)) s) ∧
  (∀ (s : State) (m : Byte) (body : Bytes),
    exec (.rspInit m body) s = exec (.rspIgnored (m :: s.cfg.initRspHdr.1 :: s.cfg.initRspHdr.2 :: body)) s) ∧
  (∀ (s : State) (m : Byte) (body : Bytes),
    exec (.rspCount m body) s = exec (.rspIgnored (m :: s.cfg.countRspHdr.1 :: s.cfg.countRspHdr.2 :: body)) s)

/-- R213, R135, R106: a frame ERRMARK, any body, TERM, fed from the start of a frame while a request is outstanding, is a
DeviceError, and no byte of it is parity-checked (that the whole frame is one operation is log 10's). -/
def Obligations.DeviceErrorFrameAlwaysFailsTheRequest : Prop :=
  ∀ (s : State) (body : Bytes), s.cfg.WF → s.sstate = .awaitingResponse → s.rxMode = .assemble → s.rxBuf = [] →
    DataBytes s.cfg body → body.length + 2 ≤ s.cfg.frameMax →
    exec (.rspDeverr body) s = .next { s with
      lstat := .lsOk, sstate := .idle, resValid := true, resOk := false, resErr := .eDevice, resKind := s.pendKind,
      rawFrame := s.cfg.errmark :: body ++ [s.cfg.term],
      events := [.linkStatus .ok, .frame (s.cfg.errmark :: body ++ [s.cfg.term]),
        .completion ⟨.errored, s.pendKind, false, .eDevice, none, some (s.cfg.errmark :: body ++ [s.cfg.term])⟩],
      result := none }

/-- R215, R104: an Initialize response on the wire while an Initialize is outstanding. -/
def Obligations.InitializeResponseFrameSucceeds : Prop :=
  ∀ (s : State) (m : Byte) (body : Bytes), s.sstate = .awaitingResponse → s.pendKind = .kInit → m ≠ s.cfg.errmark →
    FrameArrives s (m :: s.cfg.initRspHdr.1 :: s.cfg.initRspHdr.2 :: body) →
    exec (.rspInit m body) s = .next { s with
      lstat := .lsOk, sstate := .idle, resValid := true, resOk := true, resErr := .eNone, resKind := .kInit,
      events := [.linkStatus .ok, .frame (m :: s.cfg.initRspHdr.1 :: s.cfg.initRspHdr.2 :: body ++ [s.cfg.term]),
        .completion ⟨.responded, .kInit, true, .eNone, none, none⟩],
      result := none }

/-- R216, R217, R105: a Count response on the wire while a Count is outstanding, decodable or not. -/
def Obligations.CountResponseFrameIsDecoded : Prop :=
  ∀ (s : State) (m : Byte) (body : Bytes), s.sstate = .awaitingResponse → s.pendKind = .kCount → m ≠ s.cfg.errmark →
    FrameArrives s (m :: s.cfg.countRspHdr.1 :: s.cfg.countRspHdr.2 :: body) →
    (∀ c, decCount s.cfg (m :: s.cfg.countRspHdr.1 :: s.cfg.countRspHdr.2 :: body ++ [s.cfg.term]) = some c →
      ∃ t, exec (.rspCount m body) s = .next t ∧
        t.acc1.toNat = c.acc1 ∧ t.acc2.toNat = c.acc2 ∧ t.rej1.toNat = c.rej1 ∧ t.rej2.toNat = c.rej2 ∧
        t = { s with
          acc1 := t.acc1, acc2 := t.acc2, rej1 := t.rej1, rej2 := t.rej2,
          lstat := .lsOk, sstate := .idle, resValid := true, resOk := true, resErr := .eNone, resKind := .kCount,
          events := [.linkStatus .ok, .frame (m :: s.cfg.countRspHdr.1 :: s.cfg.countRspHdr.2 :: body ++ [s.cfg.term]),
            .completion ⟨.responded, .kCount, true, .eNone, some c, none⟩],
          result := none }) ∧
    (decCount s.cfg (m :: s.cfg.countRspHdr.1 :: s.cfg.countRspHdr.2 :: body ++ [s.cfg.term]) = none →
      exec (.rspCount m body) s = .next { s with
        lstat := .lsOk, sstate := .idle, resValid := true, resOk := false, resErr := .eFormat, resKind := .kCount,
        events := [.linkStatus .ok, .frame (m :: s.cfg.countRspHdr.1 :: s.cfg.countRspHdr.2 :: body ++ [s.cfg.term]),
          .completion ⟨.responded, .kCount, false, .eFormat, none, none⟩],
        result := none })

/-- R214, R112: any other frame on the wire while a request is outstanding. -/
def Obligations.OtherFrameIsAHeaderMismatch : Prop :=
  ∀ (s : State) (data : Bytes), s.cfg.WF → s.sstate = .awaitingResponse → FrameArrives s data →
    data.head? ≠ some s.cfg.errmark →
    (data[1]? ≠ some (expHeader s.cfg s.pendKind).1 ∨ data[2]? ≠ some (expHeader s.cfg s.pendKind).2) →
    exec (.rspMismatch data) s = .next { s with
      lstat := .lsOk, sstate := .idle, resValid := true, resOk := false, resErr := .eHeaderMismatch,
      resKind := s.pendKind,
      events := [.linkStatus .ok, .frame (data ++ [s.cfg.term]),
        .completion ⟨.errored, s.pendKind, false, .eHeaderMismatch, none, none⟩],
      result := none }

/-- R209, R112: any frame on the wire with no request outstanding. -/
def Obligations.FrameWithoutRequestIsIgnored : Prop :=
  ∀ (s : State) (data : Bytes), s.sstate ≠ .awaitingResponse → FrameArrives s data →
    exec (.rspIgnored data) s = .next { s with
      lstat := .lsOk, events := [.linkStatus .ok, .frame (data ++ [s.cfg.term])], result := none }

/-- R100, R101, R180, R182: the command frames (that they change nothing is log 11's; outside [0, 99] there is none, R183 d). -/
def Obligations.CommandFramesHaveTheirLayout : Prop :=
  (∀ (s : State) (o t b k : Byte), exec (.cmdInit o t b k) s = .next { s with
    events := [], result := some (.bytes [s.cfg.cmdOp, s.cfg.initClass, s.cfg.initSub, o, t, b, 0, 0, 0, 0, k, k, k, k, s.cfg.term]) }) ∧
  (∀ (s : State) (c1 c2 : Nat), c1 ≤ 99 → c2 ≤ 99 → exec (.cmdCount c1 c2) s = .next { s with
    events := [], result := some (.bytes ([s.cfg.cmdOp, s.cfg.countClass, s.cfg.countSub, s.cfg.countOption] ++ dpenc s.cfg c1 ++ dpenc s.cfg c2 ++
      dpenc s.cfg 0 ++ dpenc s.cfg 0 ++ dpenc s.cfg s.cfg.rejectThreshold ++ dpenc s.cfg s.cfg.rejectThreshold ++
      dpenc s.cfg s.cfg.rejectThreshold ++ dpenc s.cfg s.cfg.rejectThreshold ++
      [s.cfg.retryCount, s.cfg.retryCount, s.cfg.retryCount, s.cfg.retryCount, s.cfg.term])) }) ∧
  (∀ (s : State) (o t b k : Byte), s.cfg = Config.default → exec (.cmdInit o t b k) s = .next { s with
    events := [], result := some (.bytes [0x60, 0x02, 0x0D, o, t, b, 0, 0, 0, 0, k, k, k, k, 0x1C]) }) ∧
  (∀ (s : State) (c1 c2 : Nat), s.cfg = Config.default → c1 ≤ 99 → c2 ≤ 99 → exec (.cmdCount c1 c2) s = .next { s with
    events := [], result := some (.bytes ([0x60, 0x03, 0x15, 0xE4] ++ dpenc s.cfg c1 ++ dpenc s.cfg c2 ++
      [0x30, 0x30, 0x30, 0x30, 0x30, 0xB4, 0x30, 0xB4, 0x30, 0xB4, 0x30, 0xB4, 3, 3, 3, 3, 0x1C])) }) ∧
  (∀ (s : State) (c1 c2 : Nat), 99 < c1 ∨ 99 < c2 → exec (.cmdCount c1 c2) s = .refused .operandRange)

/-! The block operations. -/

/-- R118: hc_op 0 takes no step: nothing changes and no event is emitted. -/
def Obligations.NopLeavesTheBlockAsItIs : Prop :=
  ∀ s : State, exec .nop s = .next { s with events := [], result := none }

/-- R201: ISSUE_INIT, its encoding, accepted and BUSY. -/
def Obligations.IssueInitArmsAndTransmitsTwice : Prop :=
  (∀ (ctx : Ctx) (o t b k : Byte), decode ctx (.hostCommand 1 o t b k) = .ok (.issueInit o t b k)) ∧
  (∀ (s : State) (o t b k : Byte), s.sstate = .idle →
    exec (.issueInit o t b k) s = .next { s with
      sstate := .awaitingResponse, pendKind := .kInit, protSel := .psInit,
      txq := s.txq ++ (List.replicate s.cfg.txCopies
        [s.cfg.cmdOp, s.cfg.initClass, s.cfg.initSub, o, t, b, 0, 0, 0, 0, k, k, k, k, s.cfg.term]).flatten,
      events := [.issueOutcome .accepted], result := none }) ∧
  (∀ (s : State) (o t b k : Byte), s.cfg = Config.default → s.sstate = .idle →
    exec (.issueInit o t b k) s = .next { s with
      sstate := .awaitingResponse, pendKind := .kInit, protSel := .psInit,
      txq := s.txq ++ [0x60, 0x02, 0x0D, o, t, b, 0, 0, 0, 0, k, k, k, k, 0x1C]
        ++ [0x60, 0x02, 0x0D, o, t, b, 0, 0, 0, 0, k, k, k, k, 0x1C],
      events := [.issueOutcome .accepted], result := none }) ∧
  (∀ (s : State) (o t b k : Byte), s.sstate ≠ .idle →
    exec (.issueInit o t b k) s = .next { s with events := [.issueOutcome .busy], result := none })

/-- R202: ISSUE_COUNT with its operands in range, its encoding, accepted and BUSY. -/
def Obligations.IssueCountArmsAndTransmitsTwice : Prop :=
  (∀ (ctx : Ctx) (a b c d : Byte), a.toNat ≤ 99 → b.toNat ≤ 99 →
    decode ctx (.hostCommand 2 a b c d) = .ok (.issueCount a.toNat b.toNat)) ∧
  (∀ (s : State) (c1 c2 : Nat), s.sstate = .idle → c1 ≤ 99 → c2 ≤ 99 →
    exec (.issueCount c1 c2) s = .next { s with
      sstate := .awaitingResponse, pendKind := .kCount, protSel := .psCount,
      txq := s.txq ++ (List.replicate s.cfg.txCopies (encCount s.cfg c1 c2)).flatten,
      events := [.issueOutcome .accepted], result := none }) ∧
  (∀ (s : State) (c1 c2 : Nat), s.cfg = Config.default → s.sstate = .idle → c1 ≤ 99 → c2 ≤ 99 →
    exec (.issueCount c1 c2) s = .next { s with
      sstate := .awaitingResponse, pendKind := .kCount, protSel := .psCount,
      txq := s.txq ++ encCount s.cfg c1 c2 ++ encCount s.cfg c1 c2,
      events := [.issueOutcome .accepted], result := none }) ∧
  (∀ (s : State) (c1 c2 : Nat), s.sstate ≠ .idle → c1 ≤ 99 → c2 ≤ 99 →
    exec (.issueCount c1 c2) s = .next { s with events := [.issueOutcome .busy], result := none })

/-- R204: an ISSUE while not Idle does nothing but answer BUSY; and the micro-operation BUSY on its own. -/
def Obligations.IssueWhileNotIdleIsBusy : Prop :=
  ∀ s : State, s.sstate ≠ .idle →
    (∀ o t b k, exec (.issueInit o t b k) s = .next { s with events := [.issueOutcome .busy], result := none }) ∧
    (∀ c1 c2, c1 ≤ 99 → c2 ≤ 99 →
      exec (.issueCount c1 c2) s = .next { s with events := [.issueOutcome .busy], result := none }) ∧
    exec .busy s = .next { s with events := [.issueOutcome .busy], result := none }

/-- R205, R292: an operand above 99 is refused whatever SSTATE is, before the busy test, and on the port too. -/
def Obligations.IssueCountAboveNinetyNineIsRefused : Prop :=
  (∀ (s : State) (c1 c2 : Nat), 99 < c1 ∨ 99 < c2 → exec (.issueCount c1 c2) s = .refused .operandRange) ∧
  (∀ (s : State) (a b c d : Byte) (rest : List PortWord), s.inputs = .hostCommand 2 a b c d :: rest →
    99 < a.toNat ∨ 99 < b.toNat → step s = .refused (.undecodable .operandRange))

/-- R140: CODEC_RESET, its encoding; it clears the frame in progress and the mode, and nothing else. -/
def Obligations.CodecResetClearsOnlyTheCodec : Prop :=
  (∀ (ctx : Ctx) (a b c d : Byte), decode ctx (.hostCommand 3 a b c d) = .ok .codecReset) ∧
  ∀ s : State, exec .codecReset s = .next { s with rxBuf := [], rxMode := .assemble, events := [], result := none }

/-- R225: TXPOP takes the head of TXQ, and is enabled exactly when there is one. -/
def Obligations.TxpopTakesTheHead : Prop :=
  (∀ (s : State) (b : Byte) (rest : Bytes), s.txq = b :: rest →
    exec .txpop s = .next { s with txq := rest, events := [.txByte b], result := none }) ∧
  (∀ s : State, s.txq = [] → exec .txpop s = .refused .txqEmpty)

/-! The pure micro-operations. That a value is returned in a field of the model is log 3's. -/

/-- R180, R182: the encoders. -/
def Obligations.EncodersReturnTheCommand : Prop :=
  (∀ (s : State) (o t b k : Byte), exec (.encInit o t b k) s = .next { s with
    events := [], result := some (.bytes [s.cfg.cmdOp, s.cfg.initClass, s.cfg.initSub, o, t, b, 0, 0, 0, 0, k, k, k, k, s.cfg.term]) }) ∧
  (∀ (s : State) (c1 c2 : Nat), c1 ≤ 99 → c2 ≤ 99 → exec (.encCount c1 c2) s = .next { s with
    events := [], result := some (.bytes ([s.cfg.cmdOp, s.cfg.countClass, s.cfg.countSub, s.cfg.countOption] ++ dpenc s.cfg c1 ++ dpenc s.cfg c2 ++
      dpenc s.cfg 0 ++ dpenc s.cfg 0 ++ dpenc s.cfg s.cfg.rejectThreshold ++ dpenc s.cfg s.cfg.rejectThreshold ++
      dpenc s.cfg s.cfg.rejectThreshold ++ dpenc s.cfg s.cfg.rejectThreshold ++
      [s.cfg.retryCount, s.cfg.retryCount, s.cfg.retryCount, s.cfg.retryCount, s.cfg.term])) }) ∧
  (∀ (s : State) (o t b k : Byte), s.cfg = Config.default → exec (.encInit o t b k) s = .next { s with
    events := [], result := some (.bytes [0x60, 0x02, 0x0D, o, t, b, 0, 0, 0, 0, k, k, k, k, 0x1C]) }) ∧
  (∀ (s : State) (c1 c2 : Nat), s.cfg = Config.default → c1 ≤ 99 → c2 ≤ 99 → exec (.encCount c1 c2) s = .next { s with
    events := [], result := some (.bytes ([0x60, 0x03, 0x15, 0xE4] ++ dpenc s.cfg c1 ++ dpenc s.cfg c2 ++
      dpenc s.cfg 0 ++ dpenc s.cfg 0 ++ dpenc s.cfg 4 ++ dpenc s.cfg 4 ++ dpenc s.cfg 4 ++ dpenc s.cfg 4 ++
      [3, 3, 3, 3] ++ [0x1C])) })

/-- R182, R183 f, R93: for every pair of counts the command has COUNT_LEN = 25 bytes, and no byte but the last is TERM. -/
def Obligations.CountCommandIsOneFrame : Prop :=
  ∀ (cfg : Config) (c1 c2 : Nat), cfg.WF → c1 ≤ 99 → c2 ≤ 99 →
    (encCount cfg c1 c2).length = 25 ∧ countLen cfg = 25 ∧ IsFrame cfg (encCount cfg c1 c2)

/-- R240, R241: DEC_INIT, and its refusal without the precondition of every decode (that a sequence that is no delivered
frame is decoded too is log 24's). -/
def Obligations.DecodeInitializeReadsNothing : Prop :=
  (∀ (s : State) (f : Bytes), s.sstate ≠ .idle → s.pendKind = .kInit → f.head? ≠ some s.cfg.errmark →
    f[1]? = some s.cfg.initRspHdr.1 → f[2]? = some s.cfg.initRspHdr.2 →
    exec (.decInit f) s = .next { s with events := [], result := some .success }) ∧
  (∀ (s : State) (f : Bytes),
    s.sstate = .idle ∨ s.pendKind ≠ .kInit ∨ f.head? = some s.cfg.errmark ∨
      f[1]? ≠ some s.cfg.initRspHdr.1 ∨ f[2]? ≠ some s.cfg.initRspHdr.2 →
    exec (.decInit f) s = .refused .decodePrecondition)

/-- R240, R242 to R245: DEC_COUNT reads the four digit pairs at OFF_ACC1, OFF_ACC2, OFF_REJ1, OFF_REJ2; a frame too short to
hold them (of fewer than 52 bytes with the spec's offsets) or a byte that is no digit is FORMAT_FAIL; without the
precondition of every decode it is refused (that a sequence that is no delivered frame is decoded too is log 24's). -/
def Obligations.DecodeCountReadsFourDigitPairs : Prop :=
  (∀ (s : State) (f : Bytes), s.sstate ≠ .idle → s.pendKind = .kCount → f.head? ≠ some s.cfg.errmark →
    f[1]? = some s.cfg.countRspHdr.1 → f[2]? = some s.cfg.countRspHdr.2 →
    let off : Fin 4 → Nat := ([s.cfg.offAcc1, s.cfg.offAcc2, s.cfg.offRej1, s.cfg.offRej2].getD · 0)
    (∀ x y : Fin 4 → Byte, ∀ n : Fin 4 → Nat, s.cfg.countRspMin ≤ f.length →
      (∀ i : Fin 4, f[s.cfg.fieldBase + off i]? = some (x i) ∧ f[s.cfg.fieldBase + off i + 1]? = some (y i) ∧
        dpdec s.cfg (x i) (y i) = some (n i)) →
      exec (.decCount f) s = .next { s with events := [], result := some (.counts ⟨n 0, n 1, n 2, n 3⟩) }) ∧
    ((f.length < s.cfg.countRspMin ∨
        ∃ (i : Fin 4) (x y : Byte), f[s.cfg.fieldBase + off i]? = some x ∧ f[s.cfg.fieldBase + off i + 1]? = some y ∧
          dpdec s.cfg x y = none) →
      exec (.decCount f) s = .next { s with events := [], result := some .formatFail })) ∧
  Config.default.countRspMin = 52 ∧
  (∀ (s : State) (f : Bytes),
    s.sstate = .idle ∨ s.pendKind ≠ .kCount ∨ f.head? = some s.cfg.errmark ∨
      f[1]? ≠ some s.cfg.countRspHdr.1 ∨ f[2]? ≠ some s.cfg.countRspHdr.2 →
    exec (.decCount f) s = .refused .decodePrecondition)

/-- R164, R165, R166: the digit-pair operations. -/
def Obligations.DigitPairOperations : Prop :=
  (∀ (s : State) (n : Nat), n ≤ 99 → exec (.dpenc n) s = .next { s with
    events := [], result := some (.bytes
      [prot (BitVec.ofNat 7 (s.cfg.digitBase.toNat + n / 10)), prot (BitVec.ofNat 7 (s.cfg.digitBase.toNat + n % 10))]) }) ∧
  (∀ (s : State) (n : Nat), 99 < n → exec (.dpenc n) s = .refused .operandRange) ∧
  (∀ (s : State) (hi lo : Byte), exec (.dpdec hi lo) s = .next { s with
    events := [],
    result := some (
      let z := s.cfg.digitBase.toNat
      if hi.toNat % 128 < z ∨ z + 9 < hi.toNat % 128 ∨ lo.toNat % 128 < z ∨ z + 9 < lo.toNat % 128 then .notDigits
      else .number (10 * (hi.toNat % 128 - z) + (lo.toNat % 128 - z))) }) ∧
  Config.default.digitBase = 0x30

/-- R167: decoding what was encoded gives it back, both bytes have right parity, and the converse up to parity. -/
def Obligations.DigitPairsRoundTrip : Prop :=
  ∀ cfg : Config, cfg.WF →
    (∀ n, n ≤ 99 → ∃ hi lo, dpenc cfg n = [hi, lo] ∧ dpdec cfg hi lo = some n ∧ parityOk hi = true ∧ parityOk lo = true) ∧
    (∀ (hi lo : Byte) (n : Nat), dpdec cfg hi lo = some n →
      n ≤ 99 ∧ (dpenc cfg n = [hi, lo] ↔ parityOk hi = true ∧ parityOk lo = true))

/-- R160, R161, R162: the parity operations. -/
def Obligations.ParityOperations : Prop :=
  (∀ (s : State) (v : Val7), exec (.par7 v) s = .next { s with
    events := [], result := some (.flag
      (v.getLsbD 0 ^^ v.getLsbD 1 ^^ v.getLsbD 2 ^^ v.getLsbD 3 ^^ v.getLsbD 4 ^^ v.getLsbD 5 ^^ v.getLsbD 6)) }) ∧
  (∀ (s : State) (v : Val7), ∃ b : Byte, b.toNat = (par7 v).toNat * 128 + v.toNat ∧
    exec (.prot v) s = .next { s with events := [], result := some (.byte b) }) ∧
  (∀ (s : State) (b : Byte), exec (.parityOk b) s = .next { s with
    events := [], result := some (.flag (b.getLsbD 7 == par7 (b.setWidth 7))) })

/-- R163: (a) PROT is right, (b) and canonical; (c) the check is even parity of all eight bits; (d) half the bytes pass it;
(e) every single-bit error in a byte changes it, and no double one does. -/
def Obligations.ParityDetectsSingleBitErrors : Prop :=
  (∀ v : Val7, parityOk (prot v) = true) ∧
  (∀ b : Byte, prot (b.setWidth 7) = b ↔ parityOk b = true) ∧
  (∀ b : Byte, parityOk b = true ↔ ((List.range 8).countP fun i => b.getLsbD i) % 2 = 0) ∧
  ((List.range 256).countP fun n => parityOk (BitVec.ofNat 8 n)) = 128 ∧
  (∀ (b : Byte) (i : Fin 8), parityOk (b ^^^ BitVec.twoPow 8 i) = !parityOk b) ∧
  (∀ (b : Byte) (i j : Fin 8), i ≠ j → parityOk (b ^^^ BitVec.twoPow 8 i ^^^ BitVec.twoPow 8 j) = parityOk b)

/-- R132, R135, R8: PROTECTED for every PROTMAP, what it is with the default one, and its refusal where RXBUF[0] is not
defined (U4, log 13). -/
def Obligations.ProtectedFollowsProtmapAndTheMarker : Prop :=
  (∀ (s : State) (off : Nat), ((s.protSel, off) ∉ s.cfg.protMap ∨ off = 0 ∨ s.rxBuf ≠ []) →
    exec (.protectedAt off) s = .next { s with
      events := [],
      result := some (.flag (decide ((s.protSel, off) ∈ s.cfg.protMap ∧ ¬ (1 ≤ off ∧ s.rxBuf.head? = some s.cfg.errmark)))) }) ∧
  (∀ (s : State) (off : Nat), (s.protSel, off) ∈ s.cfg.protMap → 1 ≤ off → s.rxBuf = [] →
    exec (.protectedAt off) s = .refused .bufferUndefined) ∧
  (∀ (sel : ProtSel) (off : Nat), (sel, off) ∈ Config.default.protMap ↔
    sel = .psCount ∧ off ∈ [0x27, 0x28, 0x29, 0x2A, 0x2F, 0x30, 0x31, 0x32])

/-! Decoding, and the step. -/

/-- R110, R111, R118, R131: a few words written out from the spec's encodings. -/
def Obligations.WordsDecodeAsTheSpecEncodesThem : Prop :=
  decode ⟨Config.default, none, false⟩ (.hostCommand 1 0x00 0x42 0x42 0x0B) = .ok (.issueInit 0x00 0x42 0x42 0x0B) ∧
  decode ⟨Config.default, none, false⟩ (.hostCommand 2 0x08 0x0C 0xFF 0xFF) = .ok (.issueCount 8 12) ∧
  decode ⟨Config.default, none, false⟩ (.hostCommand 3 0 0 0 0) = .ok .codecReset ∧
  decode ⟨Config.default, none, false⟩ (.receive true 0x55) = .ok (.feed 0x55) ∧
  decode ⟨Config.default, none, true⟩ (.transmit true) = .ok .txpop ∧
  decode ⟨Config.default, none, false⟩ (.wireByte 0xB8) = .ok (.digit true 8) ∧
  decode ⟨Config.default, some .kCount, false⟩ (.fromDevice [0xF0, 0x45, 0x31, 0x1C]) = .ok (.rspDeverr [0x45, 0x31]) ∧
  decode ⟨Config.default, some .kInit, false⟩ (.fromDevice [0xE0, 0x02, 0x34, 0x1C]) = .ok (.rspInit 0xE0 []) ∧
  decode ⟨Config.default, some .kCount, false⟩ (.fromDevice [0xE0, 0x02, 0x34, 0x1C]) = .ok (.rspMismatch [0xE0, 0x02, 0x34]) ∧
  decode ⟨Config.default, none, false⟩ (.fromDevice [0xE0, 0x02, 0x34, 0x1C]) = .ok (.rspIgnored [0xE0, 0x02, 0x34])

/-- R90 to R118: decoding the word of a well-formed operation, in the context its row stands in, gives it back. -/
def Obligations.DecodeOfEncodeIsTheOperation : Prop :=
  ∀ (ctx : Ctx) (i : Instr) (w : PortWord), ctx.cfg.WF → WellFormed ctx.cfg i → inContext ctx i = true →
    encode ctx.cfg i = some w →
    decode ctx w = .ok i

/-- R260 to R262, R13: a step takes the first offered word and is `exec` of the operation it decodes to; a port that
selects nothing, or nothing offered, leaves the block as it is (R118, R221, R305); any other word stops by name. -/
def Obligations.StepRunsTheOfferedOperation : Prop :=
  (∀ (s : State) (w : PortWord) (rest : List PortWord) (i : Instr), s.inputs = w :: rest →
    decode ⟨s.cfg, if s.sstate = .awaitingResponse then some s.pendKind else none, !s.txq.isEmpty⟩ w = .ok i →
    step s = exec i { s with inputs := rest }) ∧
  (∀ (s : State) (w : PortWord) (rest : List PortWord), s.inputs = w :: rest →
    decode ⟨s.cfg, if s.sstate = .awaitingResponse then some s.pendKind else none, !s.txq.isEmpty⟩ w = .error .portIdle →
    step s = .next { s with inputs := rest, events := [], result := none }) ∧
  (∀ s : State, s.inputs = [] → step s = .next { s with events := [], result := none }) ∧
  (∀ (s : State) (w : PortWord) (rest : List PortWord) (e : DecodeError), s.inputs = w :: rest → e ≠ .portIdle →
    decode ⟨s.cfg, if s.sstate = .awaitingResponse then some s.pendKind else none, !s.txq.isEmpty⟩ w = .error e →
    step s = .refused (.undecodable e))

/-! Whole-machine rules. -/

/-- The invariant holds right after reset (R320; the counts there are the model's choice, log 5). -/
def Obligations.InvariantHoldsAtReset : Prop := Inv State.reset

/-- R143, R220, R30, R26, R35, R36, R38, R280: every step keeps the invariant, from every state that has it. -/
def Obligations.EveryStepKeepsTheInvariant : Prop :=
  ∀ s t : State, Inv s → step s = .next t → Inv t

/-- R78, R203, R226: TXQ is first-in first-out: what an operation puts on the link, followed by what is still queued, is what was
queued followed by what it appends; only RESET discards. -/
def Obligations.TransmitQueueIsFirstInFirstOut : Prop :=
  ∀ (i : Instr) (s t : State), exec i s = .next t → i ≠ .reset →
    txBytes t.events ++ t.txq = s.txq ++ enqueued i s

/-- R218, R266, R35: an operation that a port selects, other than RESET, emits exactly one Completion when it ends the
outstanding request and none otherwise; the Completion is of that request, and the result registers mirror it. -/
def Obligations.ExactlyOneCompletionPerRequest : Prop :=
  ∀ (s u t : State) (i : Instr), fetch s = .operation i u → exec i u = .next t → i ≠ .reset →
    (completions t.events).length =
      (if s.sstate = .awaitingResponse ∧ t.sstate ≠ .awaitingResponse then 1 else 0) ∧
    ∀ c ∈ completions t.events,
      c.kind = s.pendKind ∧ t.sstate = .idle ∧
      t.resValid = true ∧ t.resOk = c.ok ∧ t.resErr = c.err ∧ t.resKind = c.kind

/-- R26, R27, R31, R35, R36, R38, R28: who writes what, over every operation. -/
def Obligations.RegistersHaveOnlyTheirWriters : Prop :=
  ∀ (i : Instr) (s t : State), exec i s = .next t →
    t.cfg = s.cfg ∧ t.inputs = s.inputs ∧
    (isIssue i = false → i ≠ .reset → t.protSel = s.protSel ∧ t.pendKind = s.pendKind) ∧
    (feedsCodec i = false → i ≠ .reset → t.lstat = s.lstat) ∧
    (feedsCodec i = false → i ≠ .codecReset → i ≠ .reset → t.rxMode = s.rxMode ∧ t.rxBuf = s.rxBuf) ∧
    (i ≠ .reset → completions t.events = [] →
      t.resValid = s.resValid ∧ t.resOk = s.resOk ∧ t.resErr = s.resErr ∧ t.resKind = s.resKind) ∧
    (i ≠ .reset → (∀ c ∈ completions t.events, c.result = none) →
      t.acc1 = s.acc1 ∧ t.acc2 = s.acc2 ∧ t.rej1 = s.rej1 ∧ t.rej2 = s.rej2) ∧
    (i ≠ .reset → (∀ c ∈ completions t.events, c.raw = none) → t.rawFrame = s.rawFrame)

/-- R321, R27, R31: no step reads LSTAT, a result register, RAWFRAME, or PEND_KIND without a request: two states that differ
only there take the same step, emit the same events, and differ only there afterwards. -/
def Obligations.UnspecifiedRegistersAreNeverRead : Prop :=
  ∀ s s' : State, SameButUnread s s' →
    (∀ r, step s = .refused r ↔ step s' = .refused r) ∧
    (∀ t, step s = .next t → ∃ t', step s' = .next t' ∧ t'.events = t.events ∧ SameButUnread t t')

/-- R144, R133, R136, R137: after a link error, the rest of the corrupted frame up to its terminator is discarded without an
event and leaves exactly what CODEC_RESET would leave; the next frame is then delivered whole. -/
def Obligations.ResynchronisationLeavesNoResidue : Prop :=
  ∀ (s : State) (b : Byte) (rest data : Bytes), s.rxMode = .assemble → b ≠ s.cfg.term →
    (s.rxLen = s.cfg.frameMax - 1 ∨ (isProtected s s.rxLen = true ∧ parityOk b = false)) →
    DataBytes s.cfg rest → DataBytes s.cfg data → data.length + 1 ≤ s.cfg.frameMax → PassesCheck s data →
    ∃ t u v, exec (.feed b) s = .next t ∧ t.rxMode = .drop ∧
      exec (.rspIgnored rest) t = .next u ∧ exec .codecReset t = .next u ∧ u.events = [] ∧
      exec (.rspIgnored data) u = .next v ∧ v.events = [.linkStatus .ok, .frame (data ++ [s.cfg.term])] ∧
      v.rxMode = .assemble ∧ v.rxBuf = [] ∧ v.lstat = .lsOk

/-! The configuration. -/

/-- R7, R8: the constants have the spec's values, each a field of the configuration, which State.reset holds; the lengths
INIT_LEN and COUNT_LEN come out of the layouts for every configuration (log 23); and the values meet Config.WF. -/
def Obligations.ConfigDefaultHasTheSpecValues : Prop :=
  State.reset.cfg = Config.default ∧ Config.default.WF ∧
  Config.default.term = 0x1C ∧ Config.default.errmark = 0xF0 ∧ Config.default.cmdOp = 0x60 ∧
  Config.default.initClass = 0x02 ∧ Config.default.initSub = 0x0D ∧ Config.default.countClass = 0x03 ∧
  Config.default.countSub = 0x15 ∧ Config.default.countOption = 0xE4 ∧ Config.default.rejectThreshold = 4 ∧
  Config.default.retryCount = 0x03 ∧ Config.default.initRspHdr = (0x02, 0x34) ∧ Config.default.countRspHdr = (0x03, 0x99) ∧
  Config.default.offAcc1 = 0x27 ∧ Config.default.offAcc2 = 0x29 ∧ Config.default.offRej1 = 0x2F ∧
  Config.default.offRej2 = 0x31 ∧ Config.default.txCopies = 2 ∧
  (∀ cfg : Config, initLen cfg = 15 ∧ countLen cfg = 25) ∧
  Config.default.frameMax = 256 ∧ Config.default.fieldBase = 0 ∧ Config.default.digitBase = 0x30
end

