-- ==== Sys2Proof/Laws/State.lean ====
section
/-!
SUPPORT. What each shared update of the state does to each field, true by rfl, so that no proof unfolds a record update.
-/
namespace Sys2Proof.Machine

open Sys2Proof

section beginStep
variable (s : State)
@[simp] theorem beginStep_rxMode : (beginStep s).rxMode = s.rxMode := rfl
@[simp] theorem beginStep_rxBuf : (beginStep s).rxBuf = s.rxBuf := rfl
@[simp] theorem beginStep_protSel : (beginStep s).protSel = s.protSel := rfl
@[simp] theorem beginStep_lstat : (beginStep s).lstat = s.lstat := rfl
@[simp] theorem beginStep_sstate : (beginStep s).sstate = s.sstate := rfl
@[simp] theorem beginStep_pendKind : (beginStep s).pendKind = s.pendKind := rfl
@[simp] theorem beginStep_txq : (beginStep s).txq = s.txq := rfl
@[simp] theorem beginStep_resValid : (beginStep s).resValid = s.resValid := rfl
@[simp] theorem beginStep_resOk : (beginStep s).resOk = s.resOk := rfl
@[simp] theorem beginStep_resErr : (beginStep s).resErr = s.resErr := rfl
@[simp] theorem beginStep_resKind : (beginStep s).resKind = s.resKind := rfl
@[simp] theorem beginStep_acc1 : (beginStep s).acc1 = s.acc1 := rfl
@[simp] theorem beginStep_acc2 : (beginStep s).acc2 = s.acc2 := rfl
@[simp] theorem beginStep_rej1 : (beginStep s).rej1 = s.rej1 := rfl
@[simp] theorem beginStep_rej2 : (beginStep s).rej2 = s.rej2 := rfl
@[simp] theorem beginStep_rawFrame : (beginStep s).rawFrame = s.rawFrame := rfl
@[simp] theorem beginStep_cfg : (beginStep s).cfg = s.cfg := rfl
@[simp] theorem beginStep_events : (beginStep s).events = [] := rfl
@[simp] theorem beginStep_result : (beginStep s).result = none := rfl
@[simp] theorem beginStep_inputs : (beginStep s).inputs = s.inputs := rfl
@[simp] theorem beginStep_freeCtr : (beginStep s).freeCtr = s.freeCtr := rfl
end beginStep

section emit
variable (s : State) (e : Event)
@[simp] theorem emit_rxMode : (emit e s).rxMode = s.rxMode := rfl
@[simp] theorem emit_rxBuf : (emit e s).rxBuf = s.rxBuf := rfl
@[simp] theorem emit_protSel : (emit e s).protSel = s.protSel := rfl
@[simp] theorem emit_lstat : (emit e s).lstat = s.lstat := rfl
@[simp] theorem emit_sstate : (emit e s).sstate = s.sstate := rfl
@[simp] theorem emit_pendKind : (emit e s).pendKind = s.pendKind := rfl
@[simp] theorem emit_txq : (emit e s).txq = s.txq := rfl
@[simp] theorem emit_resValid : (emit e s).resValid = s.resValid := rfl
@[simp] theorem emit_resOk : (emit e s).resOk = s.resOk := rfl
@[simp] theorem emit_resErr : (emit e s).resErr = s.resErr := rfl
@[simp] theorem emit_resKind : (emit e s).resKind = s.resKind := rfl
@[simp] theorem emit_acc1 : (emit e s).acc1 = s.acc1 := rfl
@[simp] theorem emit_acc2 : (emit e s).acc2 = s.acc2 := rfl
@[simp] theorem emit_rej1 : (emit e s).rej1 = s.rej1 := rfl
@[simp] theorem emit_rej2 : (emit e s).rej2 = s.rej2 := rfl
@[simp] theorem emit_rawFrame : (emit e s).rawFrame = s.rawFrame := rfl
@[simp] theorem emit_cfg : (emit e s).cfg = s.cfg := rfl
@[simp] theorem emit_events : (emit e s).events = s.events ++ [e] := rfl
@[simp] theorem emit_result : (emit e s).result = s.result := rfl
@[simp] theorem emit_inputs : (emit e s).inputs = s.inputs := rfl
@[simp] theorem emit_freeCtr : (emit e s).freeCtr = s.freeCtr := rfl
end emit

section returnValue
variable (s : State) (r : MicroResult)
@[simp] theorem returnValue_rxMode : (returnValue r s).rxMode = s.rxMode := rfl
@[simp] theorem returnValue_rxBuf : (returnValue r s).rxBuf = s.rxBuf := rfl
@[simp] theorem returnValue_protSel : (returnValue r s).protSel = s.protSel := rfl
@[simp] theorem returnValue_lstat : (returnValue r s).lstat = s.lstat := rfl
@[simp] theorem returnValue_sstate : (returnValue r s).sstate = s.sstate := rfl
@[simp] theorem returnValue_pendKind : (returnValue r s).pendKind = s.pendKind := rfl
@[simp] theorem returnValue_txq : (returnValue r s).txq = s.txq := rfl
@[simp] theorem returnValue_resValid : (returnValue r s).resValid = s.resValid := rfl
@[simp] theorem returnValue_resOk : (returnValue r s).resOk = s.resOk := rfl
@[simp] theorem returnValue_resErr : (returnValue r s).resErr = s.resErr := rfl
@[simp] theorem returnValue_resKind : (returnValue r s).resKind = s.resKind := rfl
@[simp] theorem returnValue_acc1 : (returnValue r s).acc1 = s.acc1 := rfl
@[simp] theorem returnValue_acc2 : (returnValue r s).acc2 = s.acc2 := rfl
@[simp] theorem returnValue_rej1 : (returnValue r s).rej1 = s.rej1 := rfl
@[simp] theorem returnValue_rej2 : (returnValue r s).rej2 = s.rej2 := rfl
@[simp] theorem returnValue_rawFrame : (returnValue r s).rawFrame = s.rawFrame := rfl
@[simp] theorem returnValue_cfg : (returnValue r s).cfg = s.cfg := rfl
@[simp] theorem returnValue_events : (returnValue r s).events = s.events := rfl
@[simp] theorem returnValue_result : (returnValue r s).result = some r := rfl
@[simp] theorem returnValue_inputs : (returnValue r s).inputs = s.inputs := rfl
@[simp] theorem returnValue_freeCtr : (returnValue r s).freeCtr = s.freeCtr := rfl
end returnValue

section foldIdle
variable (s : State)
@[simp] theorem foldIdle_rxMode : (foldIdle s).rxMode = s.rxMode := rfl
@[simp] theorem foldIdle_rxBuf : (foldIdle s).rxBuf = s.rxBuf := rfl
@[simp] theorem foldIdle_protSel : (foldIdle s).protSel = s.protSel := rfl
@[simp] theorem foldIdle_lstat : (foldIdle s).lstat = s.lstat := rfl
@[simp] theorem foldIdle_sstate : (foldIdle s).sstate = .idle := rfl
@[simp] theorem foldIdle_pendKind : (foldIdle s).pendKind = s.pendKind := rfl
@[simp] theorem foldIdle_txq : (foldIdle s).txq = s.txq := rfl
@[simp] theorem foldIdle_resValid : (foldIdle s).resValid = s.resValid := rfl
@[simp] theorem foldIdle_resOk : (foldIdle s).resOk = s.resOk := rfl
@[simp] theorem foldIdle_resErr : (foldIdle s).resErr = s.resErr := rfl
@[simp] theorem foldIdle_resKind : (foldIdle s).resKind = s.resKind := rfl
@[simp] theorem foldIdle_acc1 : (foldIdle s).acc1 = s.acc1 := rfl
@[simp] theorem foldIdle_acc2 : (foldIdle s).acc2 = s.acc2 := rfl
@[simp] theorem foldIdle_rej1 : (foldIdle s).rej1 = s.rej1 := rfl
@[simp] theorem foldIdle_rej2 : (foldIdle s).rej2 = s.rej2 := rfl
@[simp] theorem foldIdle_rawFrame : (foldIdle s).rawFrame = s.rawFrame := rfl
@[simp] theorem foldIdle_cfg : (foldIdle s).cfg = s.cfg := rfl
@[simp] theorem foldIdle_events : (foldIdle s).events = s.events := rfl
@[simp] theorem foldIdle_result : (foldIdle s).result = s.result := rfl
@[simp] theorem foldIdle_inputs : (foldIdle s).inputs = s.inputs := rfl
@[simp] theorem foldIdle_freeCtr : (foldIdle s).freeCtr = s.freeCtr := rfl
end foldIdle

section emitAll
variable (s : State) (evs : List CodecEvent)
@[simp] theorem emitAll_rxMode : (emitAll evs s).rxMode = s.rxMode := rfl
@[simp] theorem emitAll_rxBuf : (emitAll evs s).rxBuf = s.rxBuf := rfl
@[simp] theorem emitAll_protSel : (emitAll evs s).protSel = s.protSel := rfl
@[simp] theorem emitAll_lstat : (emitAll evs s).lstat = s.lstat := rfl
@[simp] theorem emitAll_sstate : (emitAll evs s).sstate = s.sstate := rfl
@[simp] theorem emitAll_pendKind : (emitAll evs s).pendKind = s.pendKind := rfl
@[simp] theorem emitAll_txq : (emitAll evs s).txq = s.txq := rfl
@[simp] theorem emitAll_resValid : (emitAll evs s).resValid = s.resValid := rfl
@[simp] theorem emitAll_resOk : (emitAll evs s).resOk = s.resOk := rfl
@[simp] theorem emitAll_resErr : (emitAll evs s).resErr = s.resErr := rfl
@[simp] theorem emitAll_resKind : (emitAll evs s).resKind = s.resKind := rfl
@[simp] theorem emitAll_acc1 : (emitAll evs s).acc1 = s.acc1 := rfl
@[simp] theorem emitAll_acc2 : (emitAll evs s).acc2 = s.acc2 := rfl
@[simp] theorem emitAll_rej1 : (emitAll evs s).rej1 = s.rej1 := rfl
@[simp] theorem emitAll_rej2 : (emitAll evs s).rej2 = s.rej2 := rfl
@[simp] theorem emitAll_rawFrame : (emitAll evs s).rawFrame = s.rawFrame := rfl
@[simp] theorem emitAll_cfg : (emitAll evs s).cfg = s.cfg := rfl
@[simp] theorem emitAll_events : (emitAll evs s).events = s.events ++ evs.map eventOf := rfl
@[simp] theorem emitAll_result : (emitAll evs s).result = s.result := rfl
@[simp] theorem emitAll_inputs : (emitAll evs s).inputs = s.inputs := rfl
@[simp] theorem emitAll_freeCtr : (emitAll evs s).freeCtr = s.freeCtr := rfl
end emitAll

section codecClear
variable (s : State)
@[simp] theorem codecClear_rxMode : (codecClear s).rxMode = .assemble := rfl
@[simp] theorem codecClear_rxBuf : (codecClear s).rxBuf = [] := rfl
@[simp] theorem codecClear_protSel : (codecClear s).protSel = s.protSel := rfl
@[simp] theorem codecClear_lstat : (codecClear s).lstat = s.lstat := rfl
@[simp] theorem codecClear_sstate : (codecClear s).sstate = s.sstate := rfl
@[simp] theorem codecClear_pendKind : (codecClear s).pendKind = s.pendKind := rfl
@[simp] theorem codecClear_txq : (codecClear s).txq = s.txq := rfl
@[simp] theorem codecClear_resValid : (codecClear s).resValid = s.resValid := rfl
@[simp] theorem codecClear_resOk : (codecClear s).resOk = s.resOk := rfl
@[simp] theorem codecClear_resErr : (codecClear s).resErr = s.resErr := rfl
@[simp] theorem codecClear_resKind : (codecClear s).resKind = s.resKind := rfl
@[simp] theorem codecClear_acc1 : (codecClear s).acc1 = s.acc1 := rfl
@[simp] theorem codecClear_acc2 : (codecClear s).acc2 = s.acc2 := rfl
@[simp] theorem codecClear_rej1 : (codecClear s).rej1 = s.rej1 := rfl
@[simp] theorem codecClear_rej2 : (codecClear s).rej2 = s.rej2 := rfl
@[simp] theorem codecClear_rawFrame : (codecClear s).rawFrame = s.rawFrame := rfl
@[simp] theorem codecClear_cfg : (codecClear s).cfg = s.cfg := rfl
@[simp] theorem codecClear_events : (codecClear s).events = s.events := rfl
@[simp] theorem codecClear_result : (codecClear s).result = s.result := rfl
@[simp] theorem codecClear_inputs : (codecClear s).inputs = s.inputs := rfl
@[simp] theorem codecClear_freeCtr : (codecClear s).freeCtr = s.freeCtr := rfl
end codecClear

section rejectBusy
variable (s : State)
@[simp] theorem rejectBusy_rxMode : (rejectBusy s).rxMode = s.rxMode := rfl
@[simp] theorem rejectBusy_rxBuf : (rejectBusy s).rxBuf = s.rxBuf := rfl
@[simp] theorem rejectBusy_protSel : (rejectBusy s).protSel = s.protSel := rfl
@[simp] theorem rejectBusy_lstat : (rejectBusy s).lstat = s.lstat := rfl
@[simp] theorem rejectBusy_sstate : (rejectBusy s).sstate = s.sstate := rfl
@[simp] theorem rejectBusy_pendKind : (rejectBusy s).pendKind = s.pendKind := rfl
@[simp] theorem rejectBusy_txq : (rejectBusy s).txq = s.txq := rfl
@[simp] theorem rejectBusy_resValid : (rejectBusy s).resValid = s.resValid := rfl
@[simp] theorem rejectBusy_resOk : (rejectBusy s).resOk = s.resOk := rfl
@[simp] theorem rejectBusy_resErr : (rejectBusy s).resErr = s.resErr := rfl
@[simp] theorem rejectBusy_resKind : (rejectBusy s).resKind = s.resKind := rfl
@[simp] theorem rejectBusy_acc1 : (rejectBusy s).acc1 = s.acc1 := rfl
@[simp] theorem rejectBusy_acc2 : (rejectBusy s).acc2 = s.acc2 := rfl
@[simp] theorem rejectBusy_rej1 : (rejectBusy s).rej1 = s.rej1 := rfl
@[simp] theorem rejectBusy_rej2 : (rejectBusy s).rej2 = s.rej2 := rfl
@[simp] theorem rejectBusy_rawFrame : (rejectBusy s).rawFrame = s.rawFrame := rfl
@[simp] theorem rejectBusy_cfg : (rejectBusy s).cfg = s.cfg := rfl
@[simp] theorem rejectBusy_events : (rejectBusy s).events = s.events ++ [.issueOutcome .busy] := rfl
@[simp] theorem rejectBusy_result : (rejectBusy s).result = s.result := rfl
@[simp] theorem rejectBusy_inputs : (rejectBusy s).inputs = s.inputs := rfl
@[simp] theorem rejectBusy_freeCtr : (rejectBusy s).freeCtr = s.freeCtr := rfl
end rejectBusy

section arm
variable (s : State) (k : Kind) (cmd : Bytes)
@[simp] theorem arm_rxMode : (arm k cmd s).rxMode = s.rxMode := rfl
@[simp] theorem arm_rxBuf : (arm k cmd s).rxBuf = s.rxBuf := rfl
@[simp] theorem arm_protSel : (arm k cmd s).protSel = selOf k := rfl
@[simp] theorem arm_lstat : (arm k cmd s).lstat = s.lstat := rfl
@[simp] theorem arm_sstate : (arm k cmd s).sstate = .awaitingResponse := rfl
@[simp] theorem arm_pendKind : (arm k cmd s).pendKind = k := rfl
@[simp] theorem arm_txq : (arm k cmd s).txq = s.txq ++ copies s.cfg cmd := rfl
@[simp] theorem arm_resValid : (arm k cmd s).resValid = s.resValid := rfl
@[simp] theorem arm_resOk : (arm k cmd s).resOk = s.resOk := rfl
@[simp] theorem arm_resErr : (arm k cmd s).resErr = s.resErr := rfl
@[simp] theorem arm_resKind : (arm k cmd s).resKind = s.resKind := rfl
@[simp] theorem arm_acc1 : (arm k cmd s).acc1 = s.acc1 := rfl
@[simp] theorem arm_acc2 : (arm k cmd s).acc2 = s.acc2 := rfl
@[simp] theorem arm_rej1 : (arm k cmd s).rej1 = s.rej1 := rfl
@[simp] theorem arm_rej2 : (arm k cmd s).rej2 = s.rej2 := rfl
@[simp] theorem arm_rawFrame : (arm k cmd s).rawFrame = s.rawFrame := rfl
@[simp] theorem arm_cfg : (arm k cmd s).cfg = s.cfg := rfl
@[simp] theorem arm_events : (arm k cmd s).events = s.events ++ [.issueOutcome .accepted] := rfl
@[simp] theorem arm_result : (arm k cmd s).result = s.result := rfl
@[simp] theorem arm_inputs : (arm k cmd s).inputs = s.inputs := rfl
@[simp] theorem arm_freeCtr : (arm k cmd s).freeCtr = s.freeCtr := rfl
end arm

section completeRequest
variable (s : State) (r : Resolution)
@[simp] theorem completeRequest_rxMode : (completeRequest r s).rxMode = s.rxMode := rfl
@[simp] theorem completeRequest_rxBuf : (completeRequest r s).rxBuf = s.rxBuf := rfl
@[simp] theorem completeRequest_protSel : (completeRequest r s).protSel = s.protSel := rfl
@[simp] theorem completeRequest_lstat : (completeRequest r s).lstat = s.lstat := rfl
@[simp] theorem completeRequest_sstate : (completeRequest r s).sstate = .idle := rfl
@[simp] theorem completeRequest_pendKind : (completeRequest r s).pendKind = s.pendKind := rfl
@[simp] theorem completeRequest_txq : (completeRequest r s).txq = s.txq := rfl
@[simp] theorem completeRequest_resValid : (completeRequest r s).resValid = true := rfl
@[simp] theorem completeRequest_resOk : (completeRequest r s).resOk = okOf r := rfl
@[simp] theorem completeRequest_resErr : (completeRequest r s).resErr = errOf r := rfl
@[simp] theorem completeRequest_resKind : (completeRequest r s).resKind = s.pendKind := rfl
@[simp] theorem completeRequest_acc1 : (completeRequest r s).acc1 = s.acc1 := rfl
@[simp] theorem completeRequest_acc2 : (completeRequest r s).acc2 = s.acc2 := rfl
@[simp] theorem completeRequest_rej1 : (completeRequest r s).rej1 = s.rej1 := rfl
@[simp] theorem completeRequest_rej2 : (completeRequest r s).rej2 = s.rej2 := rfl
@[simp] theorem completeRequest_rawFrame : (completeRequest r s).rawFrame = s.rawFrame := rfl
@[simp] theorem completeRequest_cfg : (completeRequest r s).cfg = s.cfg := rfl
@[simp] theorem completeRequest_events : (completeRequest r s).events = s.events ++ [.completion (completionOf s.pendKind r)] := rfl
@[simp] theorem completeRequest_result : (completeRequest r s).result = s.result := rfl
@[simp] theorem completeRequest_inputs : (completeRequest r s).inputs = s.inputs := rfl
@[simp] theorem completeRequest_freeCtr : (completeRequest r s).freeCtr = s.freeCtr := rfl
end completeRequest

section resetBlock
variable (s : State)
@[simp] theorem resetBlock_rxMode : (resetBlock s).rxMode = .assemble := rfl
@[simp] theorem resetBlock_rxBuf : (resetBlock s).rxBuf = [] := rfl
@[simp] theorem resetBlock_protSel : (resetBlock s).protSel = .psNone := rfl
@[simp] theorem resetBlock_lstat : (resetBlock s).lstat = .lsNone := rfl
@[simp] theorem resetBlock_sstate : (resetBlock s).sstate = .idle := rfl
@[simp] theorem resetBlock_pendKind : (resetBlock s).pendKind = Config.freeKind s.freeCtr := rfl
@[simp] theorem resetBlock_txq : (resetBlock s).txq = [] := rfl
@[simp] theorem resetBlock_resValid : (resetBlock s).resValid = false := rfl
@[simp] theorem resetBlock_resOk : (resetBlock s).resOk = false := rfl
@[simp] theorem resetBlock_resErr : (resetBlock s).resErr = .eNone := rfl
@[simp] theorem resetBlock_resKind : (resetBlock s).resKind = Config.freeKind (s.freeCtr + 1) := rfl
@[simp] theorem resetBlock_acc1 : (resetBlock s).acc1 = BitVec.ofNat 7 (Config.freeCount (s.freeCtr + 2)).val := rfl
@[simp] theorem resetBlock_acc2 : (resetBlock s).acc2 = BitVec.ofNat 7 (Config.freeCount (s.freeCtr + 3)).val := rfl
@[simp] theorem resetBlock_rej1 : (resetBlock s).rej1 = BitVec.ofNat 7 (Config.freeCount (s.freeCtr + 4)).val := rfl
@[simp] theorem resetBlock_rej2 : (resetBlock s).rej2 = BitVec.ofNat 7 (Config.freeCount (s.freeCtr + 5)).val := rfl
@[simp] theorem resetBlock_rawFrame : (resetBlock s).rawFrame = [] := rfl
@[simp] theorem resetBlock_cfg : (resetBlock s).cfg = s.cfg := rfl
@[simp] theorem resetBlock_events : (resetBlock s).events = s.events := rfl
@[simp] theorem resetBlock_result : (resetBlock s).result = s.result := rfl
@[simp] theorem resetBlock_inputs : (resetBlock s).inputs = s.inputs := rfl
@[simp] theorem resetBlock_freeCtr : (resetBlock s).freeCtr = s.freeCtr + 6 := rfl
end resetBlock

end Sys2Proof.Machine
end

