-- ==== Sys2Proof/Laws/Session.lean ====
section
/-!
SUPPORT. How a request ends, said once: what `saveResult` and `resolve` do to each field, and the cases of the session's
consumption of a codec event.
-/
namespace Sys2Proof.Machine

open Sys2Proof

section saveResult
variable (r : Resolution) (s : State)
@[simp] theorem saveResult_rxMode : (saveResult r s).rxMode = s.rxMode := by cases r <;> rfl
@[simp] theorem saveResult_rxBuf : (saveResult r s).rxBuf = s.rxBuf := by cases r <;> rfl
@[simp] theorem saveResult_protSel : (saveResult r s).protSel = s.protSel := by cases r <;> rfl
@[simp] theorem saveResult_lstat : (saveResult r s).lstat = s.lstat := by cases r <;> rfl
@[simp] theorem saveResult_sstate : (saveResult r s).sstate = s.sstate := by cases r <;> rfl
@[simp] theorem saveResult_pendKind : (saveResult r s).pendKind = s.pendKind := by cases r <;> rfl
@[simp] theorem saveResult_txq : (saveResult r s).txq = s.txq := by cases r <;> rfl
@[simp] theorem saveResult_resValid : (saveResult r s).resValid = s.resValid := by cases r <;> rfl
@[simp] theorem saveResult_resOk : (saveResult r s).resOk = s.resOk := by cases r <;> rfl
@[simp] theorem saveResult_resErr : (saveResult r s).resErr = s.resErr := by cases r <;> rfl
@[simp] theorem saveResult_resKind : (saveResult r s).resKind = s.resKind := by cases r <;> rfl
@[simp] theorem saveResult_cfg : (saveResult r s).cfg = s.cfg := by cases r <;> rfl
@[simp] theorem saveResult_events : (saveResult r s).events = s.events := by cases r <;> rfl
@[simp] theorem saveResult_result : (saveResult r s).result = s.result := by cases r <;> rfl
@[simp] theorem saveResult_inputs : (saveResult r s).inputs = s.inputs := by cases r <;> rfl
@[simp] theorem saveResult_freeCtr : (saveResult r s).freeCtr = s.freeCtr := by cases r <;> rfl
@[simp] theorem saveResult_deviceError (f : Bytes) : saveResult (.deviceError f) s = { s with rawFrame := f } := rfl
@[simp] theorem saveResult_linkError (e : LinkErr) : saveResult (.linkError e) s = s := rfl
@[simp] theorem saveResult_headerMismatch : saveResult .headerMismatch s = s := rfl
@[simp] theorem saveResult_initOk : saveResult .initOk s = s := rfl
@[simp] theorem saveResult_formatFail : saveResult .formatFail s = s := rfl
@[simp] theorem saveResult_countOk (c : Counts) : saveResult (.countOk c) s =
    { s with
      acc1 := BitVec.ofNat 7 c.acc1, acc2 := BitVec.ofNat 7 c.acc2
      rej1 := BitVec.ofNat 7 c.rej1, rej2 := BitVec.ofNat 7 c.rej2 } := rfl
end saveResult

section resolve
variable (r : Resolution) (s : State)
@[simp] theorem resolve_rxMode : (resolve r s).rxMode = s.rxMode := by cases r <;> rfl
@[simp] theorem resolve_rxBuf : (resolve r s).rxBuf = s.rxBuf := by cases r <;> rfl
@[simp] theorem resolve_protSel : (resolve r s).protSel = s.protSel := by cases r <;> rfl
@[simp] theorem resolve_lstat : (resolve r s).lstat = s.lstat := by cases r <;> rfl
@[simp] theorem resolve_sstate : (resolve r s).sstate = .idle := by cases r <;> rfl
@[simp] theorem resolve_pendKind : (resolve r s).pendKind = s.pendKind := by cases r <;> rfl
@[simp] theorem resolve_txq : (resolve r s).txq = s.txq := by cases r <;> rfl
@[simp] theorem resolve_resValid : (resolve r s).resValid = true := by cases r <;> rfl
@[simp] theorem resolve_resOk : (resolve r s).resOk = okOf r := by cases r <;> rfl
@[simp] theorem resolve_resErr : (resolve r s).resErr = errOf r := by cases r <;> rfl
@[simp] theorem resolve_resKind : (resolve r s).resKind = s.pendKind := by cases r <;> rfl
@[simp] theorem resolve_acc1 : (resolve r s).acc1 = (saveResult r s).acc1 := by cases r <;> rfl
@[simp] theorem resolve_acc2 : (resolve r s).acc2 = (saveResult r s).acc2 := by cases r <;> rfl
@[simp] theorem resolve_rej1 : (resolve r s).rej1 = (saveResult r s).rej1 := by cases r <;> rfl
@[simp] theorem resolve_rej2 : (resolve r s).rej2 = (saveResult r s).rej2 := by cases r <;> rfl
@[simp] theorem resolve_rawFrame : (resolve r s).rawFrame = (saveResult r s).rawFrame := by cases r <;> rfl
@[simp] theorem resolve_cfg : (resolve r s).cfg = s.cfg := by cases r <;> rfl
@[simp] theorem resolve_events : (resolve r s).events = s.events ++ [.completion (completionOf s.pendKind r)] := by cases r <;> rfl
@[simp] theorem resolve_result : (resolve r s).result = s.result := by cases r <;> rfl
@[simp] theorem resolve_inputs : (resolve r s).inputs = s.inputs := by cases r <;> rfl
@[simp] theorem resolve_freeCtr : (resolve r s).freeCtr = s.freeCtr := by cases r <;> rfl
end resolve

/-! The busy test (R40, R204). -/

theorem busyFlag_iff (s : State) : busyFlag s = true ↔ s.sstate ≠ .idle := bne_iff_ne

@[simp] theorem busyFlag_beginStep (s : State) : busyFlag (beginStep s) = busyFlag s := rfl

/-- An ISSUE while Idle is accepted (R201, R202). -/
theorem issue_idle {s : State} (h : s.sstate = .idle) (k : Kind) (cmd : Bytes) : issue k cmd s = arm k cmd s := by
  simp [issue, busyFlag, h]

/-- An ISSUE while not Idle is BUSY (R204). -/
theorem issue_busy {s : State} (h : s.sstate ≠ .idle) (k : Kind) (cmd : Bytes) : issue k cmd s = rejectBusy s := by
  simp [issue, busyFlag, h]

/-- The bytes an accepted ISSUE appends are the command twice, with TX_COPIES = 2 (R203). -/
theorem copies_eq {cfg : Config} (h : cfg.txCopies = 2) (cmd : Bytes) : copies cfg cmd = cmd ++ cmd := by
  simp [copies, h, List.replicate]

/-! The session's consumption of an event. -/

/-- Outside AwaitingResponse every event is ignored (R209). -/
theorem consumeEvent_ignored {s : State} (h : s.sstate ≠ .awaitingResponse) (ev : CodecEvent) : consumeEvent s ev = s := by
  simp [consumeEvent, h]

/-- A list of events is ignored outside AwaitingResponse (R209). -/
theorem consumeEvents_ignored {s : State} (h : s.sstate ≠ .awaitingResponse) (evs : List CodecEvent) :
    consumeEvents evs s = s := by
  induction evs with
  | nil => rfl
  | cons ev evs ih => simpa [consumeEvents, consumeEvent_ignored h] using ih

/-- LinkStatus(LS_OK) causes no transition (R219). -/
@[simp] theorem consumeEvent_ok (s : State) : consumeEvent s (.linkStatus .ok) = s := by
  simp [consumeEvent]

/-- A link error in AwaitingResponse fails the request (R212). -/
theorem consumeEvent_err {s : State} (h : s.sstate = .awaitingResponse) (e : LinkErr) :
    consumeEvent s (.linkStatus (.err e)) = resolve (.linkError e) s := by
  simp [consumeEvent, h]

/-- A frame in AwaitingResponse is classified (R211). -/
theorem consumeEvent_frame {s : State} (h : s.sstate = .awaitingResponse) (f : Bytes) :
    consumeEvent s (.frame f) = resolve (verdict s.cfg s.pendKind f) s := by
  simp [consumeEvent, h, classifyFrame]

@[simp] theorem consumeEvents_nil (s : State) : consumeEvents [] s = s := rfl

@[simp] theorem consumeEvents_cons (s : State) (ev : CodecEvent) (evs : List CodecEvent) :
    consumeEvents (ev :: evs) s = consumeEvents evs (consumeEvent s ev) := rfl

theorem consumeEvents_append (as bs : List CodecEvent) (s : State) :
    consumeEvents (as ++ bs) s = consumeEvents bs (consumeEvents as s) := by
  simp [consumeEvents]

/-- Everything one event can do: nothing, or end the outstanding request by some resolution of its kind. -/
theorem consumeEvent_cases (s : State) (ev : CodecEvent) :
    consumeEvent s ev = s ∨ (s.sstate = .awaitingResponse ∧ ∃ r, fitsKind r s.pendKind = true ∧ consumeEvent s ev = resolve r s) := by
  by_cases h : s.sstate = .awaitingResponse
  · match ev with
    | .linkStatus .ok => exact .inl (consumeEvent_ok s)
    | .linkStatus (.err e) => exact .inr ⟨h, _, rfl, consumeEvent_err h e⟩
    | .frame f =>
      refine .inr ⟨h, _, ?_, consumeEvent_frame h f⟩
      unfold verdict
      split
      · rfl
      · split
        · rfl
        · split
          · next hk => simp [fitsKind, hk]
          · next hk => split <;> simp [fitsKind, hk]
  · exact .inl (consumeEvent_ignored h ev)

/-- Everything a list of events can do: nothing, or end the outstanding request once (R208). -/
theorem consumeEvents_cases (evs : List CodecEvent) : ∀ s : State, consumeEvents evs s = s ∨
    (s.sstate = .awaitingResponse ∧ ∃ r, fitsKind r s.pendKind = true ∧ consumeEvents evs s = resolve r s) := by
  induction evs with
  | nil => exact fun s => .inl rfl
  | cons ev evs ih =>
    intro s
    rw [consumeEvents_cons]
    obtain h | ⟨hw, r, hk, h⟩ := consumeEvent_cases s ev
    · rw [h]; exact ih s
    · exact .inr ⟨hw, r, hk, by rw [h, consumeEvents_ignored (by simp)]⟩

end Sys2Proof.Machine
end

