-- ==== Sys2Proof/Laws/Codec.lean ====
section
/-!
SUPPORT. The frame codec, said once: what FEED does in each of its five cases (R131), and what feeding a run of data bytes
or a whole frame does (R134, R138).
-/
namespace Sys2Proof.Machine

open Sys2Proof

/-! FEED, case by case. -/

/-- Case 1 (R133). -/
theorem feedByte_drop {s : State} (h : s.rxMode = .drop) (b : Byte) :
    feedByte b s = { s with rxMode := if b = s.cfg.term then .assemble else .drop } := by
  by_cases hb : b = s.cfg.term <;> obtain ⟨⟩ := s <;> cases h <;> simp_all [feedByte, codecFeed, emitAll]

/-- Case 2 (R134), with the session's consumption of the frame. -/
theorem feedByte_term {s : State} {b : Byte} (h : s.rxMode = .assemble) (hb : b = s.cfg.term) :
    feedByte b s = consumeEvent
      { s with rxBuf := [], lstat := .lsOk, events := s.events ++ [.linkStatus .ok, .frame (close s.cfg s.rxBuf)] }
      (.frame (close s.cfg s.rxBuf)) := by
  simp [feedByte, codecFeed, h, hb, frameDone, emitAll, eventOf, lstatOf]

/-- Case 3 (R137). -/
theorem feedByte_overflow {s : State} {b : Byte} (h : s.rxMode = .assemble) (hb : b ≠ s.cfg.term)
    (hl : s.rxLen = s.cfg.frameMax - 1) :
    feedByte b s = consumeEvent
      { s with rxBuf := [], rxMode := .drop, lstat := .lsOverflow, events := s.events ++ [.linkStatus (.err .overflow)] }
      (.linkStatus (.err .overflow)) := by
  simp [feedByte, codecFeed, h, hb, hl, linkFail, emitAll, eventOf, lstatOf]

/-- Case 4 (R136). -/
theorem feedByte_parity {s : State} {b : Byte} (h : s.rxMode = .assemble) (hb : b ≠ s.cfg.term)
    (hl : s.rxLen ≠ s.cfg.frameMax - 1) (hp : isProtected s s.rxLen = true) (hq : parityOk b = false) :
    feedByte b s = consumeEvent
      { s with rxBuf := [], rxMode := .drop, lstat := .lsParity, events := s.events ++ [.linkStatus (.err .parity)] }
      (.linkStatus (.err .parity)) := by
  simp [feedByte, codecFeed, h, hb, hl, hp, hq, linkFail, emitAll, eventOf, lstatOf]

/-- Case 5 (R138). -/
theorem feedByte_store {s : State} {b : Byte} (h : s.rxMode = .assemble) (hb : b ≠ s.cfg.term)
    (hl : s.rxLen ≠ s.cfg.frameMax - 1) (hp : isProtected s s.rxLen = true → parityOk b = true) :
    feedByte b s = { s with rxBuf := s.rxBuf ++ [b] } := by
  have : (isProtected s s.rxLen && !parityOk b) = false := by
    cases hi : isProtected s s.rxLen <;> simp_all
  simp [feedByte, codecFeed, h, hb, hl, this, storeByte, emitAll]

/-- The codec state FEED leaves before the session runs, and the event it then consumes, if any. -/
theorem feedByte_cases (b : Byte) (s : State) :
    (s.rxMode = .drop ∧ feedByte b s = { s with rxMode := if b = s.cfg.term then .assemble else .drop }) ∨
    (s.rxMode = .assemble ∧ b = s.cfg.term ∧ feedByte b s = consumeEvent
      { s with rxBuf := [], lstat := .lsOk, events := s.events ++ [.linkStatus .ok, .frame (close s.cfg s.rxBuf)] }
      (.frame (close s.cfg s.rxBuf))) ∨
    (s.rxMode = .assemble ∧ b ≠ s.cfg.term ∧ ∃ e, feedByte b s = consumeEvent
      { s with rxBuf := [], rxMode := .drop, lstat := lstatOf (.err e), events := s.events ++ [.linkStatus (.err e)] }
      (.linkStatus (.err e))) ∨
    (s.rxMode = .assemble ∧ b ≠ s.cfg.term ∧ s.rxLen ≠ s.cfg.frameMax - 1 ∧
      (isProtected s s.rxLen = true → parityOk b = true) ∧ feedByte b s = { s with rxBuf := s.rxBuf ++ [b] }) := by
  obtain hm | hm : s.rxMode = .drop ∨ s.rxMode = .assemble := by cases s.rxMode <;> simp
  · exact .inl ⟨hm, feedByte_drop hm b⟩
  by_cases hb : b = s.cfg.term
  · exact .inr (.inl ⟨hm, hb, feedByte_term hm hb⟩)
  by_cases hl : s.rxLen = s.cfg.frameMax - 1
  · exact .inr (.inr (.inl ⟨hm, hb, .overflow, feedByte_overflow hm hb hl⟩))
  by_cases hp : isProtected s s.rxLen = true → parityOk b = true
  · exact .inr (.inr (.inr ⟨hm, hb, hl, hp, feedByte_store hm hb hl hp⟩))
  · obtain ⟨hi, hq⟩ := Classical.not_imp.mp hp
    exact .inr (.inr (.inl ⟨hm, hb, .parity, feedByte_parity hm hb hl hi (by simpa using hq)⟩))

/-- FEED writes none of the configuration, PROTSEL, PEND_KIND, TXQ, or the model's own fields but the events. -/
theorem feedByte_frame (b : Byte) (s : State) :
    (feedByte b s).cfg = s.cfg ∧ (feedByte b s).protSel = s.protSel ∧ (feedByte b s).pendKind = s.pendKind ∧
    (feedByte b s).txq = s.txq ∧ (feedByte b s).result = s.result ∧ (feedByte b s).inputs = s.inputs ∧
    (feedByte b s).freeCtr = s.freeCtr := by
  have key : ∀ t ev, (consumeEvent t ev).cfg = t.cfg ∧ (consumeEvent t ev).protSel = t.protSel ∧
      (consumeEvent t ev).pendKind = t.pendKind ∧ (consumeEvent t ev).txq = t.txq ∧
      (consumeEvent t ev).result = t.result ∧ (consumeEvent t ev).inputs = t.inputs ∧
      (consumeEvent t ev).freeCtr = t.freeCtr := by
    intro t ev
    obtain h | ⟨-, r, -, h⟩ := consumeEvent_cases t ev <;> simp [h]
  obtain ⟨-, h⟩ | ⟨-, -, h⟩ | ⟨-, -, e, h⟩ | ⟨-, -, -, -, h⟩ := feedByte_cases b s
  · simp [h]
  · simpa [h] using key _ _
  · simpa [h] using key _ _
  · simp [h]

/-! FEEDS. -/

@[simp] theorem feedBytes_nil (s : State) : feedBytes [] s = s := rfl

@[simp] theorem feedBytes_cons (b : Byte) (bs : Bytes) (s : State) :
    feedBytes (b :: bs) s = feedBytes bs (feedByte b s) := rfl

theorem feedBytes_append (as bs : Bytes) (s : State) : feedBytes (as ++ bs) s = feedBytes bs (feedBytes as s) := by
  simp [feedBytes]

/-- Whatever one FEED keeps, a run of FEEDs keeps. -/
theorem feedBytes_keeps {P : State → Prop} (h : ∀ b s, P s → P (feedByte b s)) (bs : Bytes) :
    ∀ {s}, P s → P (feedBytes bs s) := by
  induction bs with
  | nil => exact fun hs => hs
  | cons b bs ih => exact fun hs => ih (h b _ hs)

/-- A run of FEEDs writes none of what one FEED does not write. -/
theorem feedBytes_frame (bs : Bytes) (s : State) :
    (feedBytes bs s).cfg = s.cfg ∧ (feedBytes bs s).protSel = s.protSel ∧ (feedBytes bs s).pendKind = s.pendKind ∧
    (feedBytes bs s).txq = s.txq ∧ (feedBytes bs s).result = s.result ∧ (feedBytes bs s).inputs = s.inputs ∧
    (feedBytes bs s).freeCtr = s.freeCtr := by
  refine feedBytes_keeps (P := fun t => t.cfg = s.cfg ∧ t.protSel = s.protSel ∧ t.pendKind = s.pendKind ∧
    t.txq = s.txq ∧ t.result = s.result ∧ t.inputs = s.inputs ∧ t.freeCtr = s.freeCtr) ?_ bs (by simp)
  intro b t ht
  have := feedByte_frame b t
  simp_all

/-- Data bytes after a stored beginning `pre` are stored, one after another (R138). -/
theorem feedBytes_store (data : Bytes) : ∀ (pre : Bytes) (s : State), s.rxMode = .assemble → s.rxBuf = pre →
    DataBytes s.cfg data → (pre ++ data).length + 1 ≤ s.cfg.frameMax → PassesCheck s (pre ++ data) →
    feedBytes data s = { s with rxBuf := pre ++ data } := by
  induction data with
  | nil => rintro pre s hm rfl - - -; simp
  | cons b data ih =>
    rintro pre s hm rfl hd hl hp
    have hb : b ≠ s.cfg.term := fun h => hd (by simp [h])
    have hstore : feedByte b s = { s with rxBuf := s.rxBuf ++ [b] } := by
      refine feedByte_store hm hb ?_ ?_
      · simp [State.rxLen] at hl ⊢; omega
      · intro hi
        simp only [isProtected, protectedOff, State.rxLen, Bool.and_eq_true, Bool.not_eq_true',
          Bool.and_eq_false_iff] at hi
        obtain ⟨hmap, hex⟩ := hi
        obtain ⟨h1, h2⟩ | h := hp s.rxBuf.length b (by simp) hmap
        · exfalso
          have hne : s.rxBuf ≠ [] := by rintro h; simp [h] at h1
          rw [isDeviceError, List.head?_append_of_ne_nil _ hne] at h2
          have : 1 ≤ s.rxBuf.length := List.length_pos_iff.mpr hne
          obtain hex | hex := hex
          · exact of_decide_eq_false hex this
          · simp [isDeviceError, h2] at hex
        · exact h
    rw [feedBytes_cons, hstore]
    have := ih (s.rxBuf ++ [b]) { s with rxBuf := s.rxBuf ++ [b] } hm rfl (fun h => hd (by simp [h]))
      (by simpa using hl) (by simpa [PassesCheck] using hp)
    simpa using this

/-- A frame fed from its start is delivered whole, in one event after LS_OK (R134, R138). -/
theorem feedBytes_frame_arrives {s : State} {data : Bytes} (h : FrameArrives s data) :
    feedBytes (close s.cfg data) s = consumeEvent
      { s with lstat := .lsOk, events := s.events ++ [.linkStatus .ok, .frame (close s.cfg data)] } (.frame (close s.cfg data)) := by
  have hs := feedBytes_store data [] s h.assemble h.empty h.noTerm (by simpa using h.fits) (by simpa using h.passes)
  rw [close, feedBytes_append, hs, feedBytes_cons, feedBytes_nil, feedByte_term (by exact h.assemble) (by exact rfl)]
  simp [close, h.empty]

/-- In DROP, everything up to the next terminator is discarded, and the terminator returns to ASSEMBLE (R133). -/
theorem feedBytes_drop (data : Bytes) : ∀ (s : State), s.rxMode = .drop → DataBytes s.cfg data →
    feedBytes (close s.cfg data) s = { s with rxMode := .assemble } := by
  induction data with
  | nil => intro s hm _; simp [close, feedByte_drop hm]
  | cons b data ih =>
    intro s hm hd
    have hb : b ≠ s.cfg.term := fun h => hd (by simp [h])
    have hs : feedByte b s = s := by
      rw [feedByte_drop hm, if_neg hb]; obtain ⟨⟩ := s; simp_all
    rw [close, List.cons_append, feedBytes_cons, hs]
    exact ih s hm (fun h => hd (by simp [h]))

end Sys2Proof.Machine
end

