-- ==== Sys2Proof/Laws/Operands.lean ====
section
/-!
SUPPORT. The pure functions, said once: parity (R160 to R163), digit pairs (R164 to R167), the command layouts (R100, R101),
the header test and the decoder (R210, R242), and whole frames (R96).
-/
namespace Sys2Proof.Machine

open Sys2Proof

/-! Parity and digit pairs. -/

/-- A byte is its bit 7 and its low seven bits (R10). -/
@[simp] theorem joinByte_bit7_low7 (b : Byte) : joinByte (bit7 b) (low7 b) = b := by
  revert b; decide

@[simp] theorem low7_joinByte (p : Bool) (v : Val7) : low7 (joinByte p v) = v := by
  revert p v; decide

@[simp] theorem bit7_joinByte (p : Bool) (v : Val7) : bit7 (joinByte p v) = p := by
  revert p v; decide

/-- A byte is PROT of its low seven bits exactly when its parity is right (R163 b). -/
theorem prot_low7 (b : Byte) : prot (low7 b) = b ↔ parityOk b = true := by
  revert b; decide

/-- PROT is right (R163 a). -/
@[simp] theorem parityOk_prot (v : Val7) : parityOk (prot v) = true := by
  simp [parityOk, prot]

/-- A byte of right parity is not TERM (R93). -/
theorem ne_term {cfg : Config} (hc : cfg.WF) {b : Byte} (h : parityOk b = true) : b ≠ cfg.term := by
  rintro rfl
  rw [hc.termRaw] at h
  cases h

/-- A digit's code, as a number (R168: it fits in seven bits). -/
theorem digitCode_toNat {cfg : Config} (hc : cfg.WF) {d : Nat} (h : d ≤ 9) :
    (digitCode cfg d).toNat = cfg.digitBase.toNat + d := by
  have := hc.digits
  simp only [digitCode, BitVec.toNat_add, BitVec.toNat_ofNat]
  omega

/-- A digit's code carries that digit, whatever its parity bit. -/
theorem digitOf_joinByte {cfg : Config} (hc : cfg.WF) {d : Nat} (h : d ≤ 9) (p : Bool) :
    digitOf cfg (joinByte p (digitCode cfg d)) = some d := by
  simp only [digitOf, low7_joinByte, digitCode_toNat hc h]
  rw [if_pos (by omega)]
  congr 1
  omega

/-- A byte that carries a digit carries one of 0 to 9, in that digit's code (R94, R166). -/
theorem digitOf_some {cfg : Config} {b : Byte} {d : Nat} (h : digitOf cfg b = some d) : d ≤ 9 ∧ low7 b = digitCode cfg d := by
  obtain ⟨ht, hd⟩ := Option.ite_none_right_eq_some.mp h
  cases hd
  refine ⟨by omega, BitVec.eq_of_toNat_eq ?_⟩
  simp only [digitCode, BitVec.toNat_add, BitVec.toNat_ofNat]
  have := (low7 b).isLt
  omega

/-- DPDEC undoes D (R167). -/
theorem dpdec_dpenc {cfg : Config} (hc : cfg.WF) {n : Nat} (h : n ≤ COUNT_MAX) :
    dpdec cfg (prot (digitCode cfg (n / 10))) (prot (digitCode cfg (n % 10))) = some n := by
  have h1 : n / 10 ≤ 9 := by simp only [COUNT_MAX] at h; omega
  have h2 : n % 10 ≤ 9 := by omega
  simp only [dpdec, prot, digitOf_joinByte hc h1, digitOf_joinByte hc h2]
  congr 1
  omega

/-- The tens and the units of a decoded pair (R166). -/
theorem dpdec_some {cfg : Config} {hi lo : Byte} {n : Nat} (h : dpdec cfg hi lo = some n) :
    n ≤ COUNT_MAX ∧ low7 hi = digitCode cfg (n / 10) ∧ low7 lo = digitCode cfg (n % 10) := by
  unfold dpdec at h
  split at h
  · next t u ht hu =>
    cases h
    obtain ⟨h1, e1⟩ := digitOf_some ht
    obtain ⟨h2, e2⟩ := digitOf_some hu
    have h3 : (10 * t + u) / 10 = t := by omega
    have h4 : (10 * t + u) % 10 = u := by omega
    exact ⟨by simp only [COUNT_MAX]; omega, by rw [h3, e1], by rw [h4, e2]⟩
  · cases h

/-- The domain of the counts (R165). -/
theorem inRange_iff (n : Nat) : inRange n = true ↔ n ≤ COUNT_MAX := decide_eq_true_iff

theorem inRange_eq_false (n : Nat) : inRange n = false ↔ COUNT_MAX < n := by
  rw [← Bool.not_eq_true, inRange_iff, Nat.not_le]

/-! Frames. -/

/-- A closed sequence of data bytes is one frame, and opens to its data (R96). -/
@[simp] theorem openFrame_close {cfg : Config} {data : Bytes} (h : DataBytes cfg data) : openFrame cfg (close cfg data) = some data := by
  simp [openFrame, close, h]

theorem openFrame_some {cfg : Config} {f data : Bytes} (h : openFrame cfg f = some data) : f = close cfg data ∧ DataBytes cfg data := by
  simp only [openFrame] at h
  split at h
  · next hf =>
    cases h
    refine ⟨?_, hf.2⟩
    have hne : f ≠ [] := by rintro rfl; simp at hf
    rw [close, ← List.dropLast_append_getLast hne]
    have := hf.1
    rw [List.getLast?_eq_some_getLast hne] at this
    simp at this ⊢
    exact this
  · cases h

/-! The header test and the decoder. -/

/-- The header test reads offsets 1 and 2 (R210, R211). -/
theorem headerMatches_iff (cfg : Config) (k : Kind) (f : Bytes) :
    headerMatches cfg k f = true ↔ f[1]? = some (expHeader cfg k).1 ∧ f[2]? = some (expHeader cfg k).2 := by
  match f with
  | [] => simp [headerMatches]
  | [_] => simp [headerMatches]
  | [_, _] => simp [headerMatches]
  | _ :: _ :: _ :: _ => simp [headerMatches]

/-- The four numbers of a decoded Count response are 0 to 99 (R242). -/
theorem decCount_le {cfg : Config} {f : Bytes} {c : Counts} (h : decCount cfg f = some c) :
    c.acc1 ≤ COUNT_MAX ∧ c.acc2 ≤ COUNT_MAX ∧ c.rej1 ≤ COUNT_MAX ∧ c.rej2 ≤ COUNT_MAX := by
  have key : ∀ o n, digitsAt cfg f o = some n → n ≤ COUNT_MAX := by
    intro o n hn
    unfold digitsAt at hn
    split at hn
    · exact (dpdec_some hn).1
    · cases hn
  unfold decCount at h
  split at h
  · cases h
  · split at h
    · next h1 h2 h3 h4 => cases h; exact ⟨key _ _ h1, key _ _ h2, key _ _ h3, key _ _ h4⟩
    · cases h

/-- A marker makes the verdict whatever follows (R213). -/
theorem verdict_deviceError {cfg : Config} {k : Kind} {f : Bytes} (h : isDeviceError cfg f = true) : verdict cfg k f = .deviceError f := by
  simp [verdict, h]

/-- Without marker and header the verdict is a mismatch (R214). -/
theorem verdict_headerMismatch {cfg : Config} {k : Kind} {f : Bytes} (h : isDeviceError cfg f = false) (hm : headerMatches cfg k f = false) :
    verdict cfg k f = .headerMismatch := by
  simp [verdict, h, hm]

/-- With the Initialize header the verdict is success (R215). -/
theorem verdict_init {cfg : Config} {f : Bytes} (h : isDeviceError cfg f = false) (hm : headerMatches cfg .kInit f = true) :
    verdict cfg .kInit f = .initOk := by
  simp [verdict, h, hm]

/-- With the Count header the verdict is the decoder's (R216, R217). -/
theorem verdict_count {cfg : Config} {f : Bytes} (h : isDeviceError cfg f = false) (hm : headerMatches cfg .kCount f = true) :
    verdict cfg .kCount f = match decCount cfg f with
      | some r => .countOk r
      | none => .formatFail := by
  cases hd : decCount cfg f <;> simp [verdict, h, hm, hd]

end Sys2Proof.Machine
end

