-- ==== Sys2Proof/Laws/Exec.lean ====
section
/-!
SUPPORT. Everything an operation can do, said once over exec, so that a rule about every operation is a rule about a few
shared updates of the state.
-/
namespace Sys2Proof.Machine

open Sys2Proof

/-- The bytes an operation feeds to the codec, in order; `none` when it feeds none. -/
def fed (cfg : Config) : Instr → Option Bytes
  | .protbyte p v => some [joinByte p v]
  | .digit p d => some [joinByte p (digitCode cfg d.toNat)]
  | .term => some [cfg.term]
  | .rspDeverr body => some (deverrFrame cfg body)
  | .rspInit m body => some (headedFrame cfg .kInit m body)
  | .rspCount m body => some (headedFrame cfg .kCount m body)
  | .rspMismatch data => some (close cfg data)
  | .rspIgnored data => some (close cfg data)
  | .feed b => some [b]
  | _ => none

/-- An operation feeds the codec exactly when it has bytes to feed. -/
theorem fed_isSome (cfg : Config) (i : Instr) : (fed cfg i).isSome = feedsCodec i := by cases i <;> rfl

/-- The command an ISSUE operation carries. -/
def issued (cfg : Config) : Instr → Option (Kind × Bytes)
  | .issueInit o t b k => some (.kInit, encInit cfg o t b k)
  | .issueCount c1 c2 => some (.kCount, encCount cfg c1 c2)
  | _ => none

/-- An operation is an ISSUE exactly when it carries a command. -/
theorem issued_isSome (cfg : Config) (i : Instr) : (issued cfg i).isSome = isIssue i := by cases i <;> rfl

/-- The codec events a resolution micro-operation, or SESSION_CONSUME, hands to the session; COMPLETE and
FORMAT_FAIL_COMPLETION stand apart, since they also run in a transient state. -/
def consumed : Instr → Option (List CodecEvent)
  | .sessionConsume evs => some evs
  | .classify f => some [.frame f]
  | .linkErrorCompletion e => some [.linkStatus (.err e)]
  | _ => none

/-- The next states of an operation: one shared update of `beginStep s`. -/
inductive Effect (i : Instr) (s : State) : State → Prop where
  | pure (r : Option MicroResult) (hf : fed s.cfg i = none) (hi : issued s.cfg i = none) (h : i ≠ .reset) :
      Effect i s { beginStep s with result := r }
  | feeds (bs : Bytes) (h : fed s.cfg i = some bs) : Effect i s (feedBytes bs (beginStep s))
  | issues (k : Kind) (cmd : Bytes) (h : issued s.cfg i = some (k, cmd)) : Effect i s (issue k cmd (beginStep s))
  | clears (h : i = .codecReset) : Effect i s (codecClear (beginStep s))
  | pops (b : Byte) (rest : Bytes) (h : i = .txpop) (hq : s.txq = b :: rest) :
      Effect i s (emit (.txByte b) { beginStep s with txq := rest })
  | resets (h : i = .reset) : Effect i s (resetBlock (beginStep s))
  | consumes (evs : List CodecEvent) (h : consumed i = some evs) : Effect i s (consumeEvents evs (beginStep s))
  | completes (r : Resolution) (h : i = .complete r) (hk : fitsKind r s.pendKind = true) :
      Effect i s (completeRequest r (beginStep s))
  | folds (h : i = .fold) (hs : s.sstate ≠ .awaitingResponse) : Effect i s (foldIdle (beginStep s))
  | failsFormat (h : i = .formatFailCompletion) (hk : s.pendKind = .kCount) : Effect i s (resolve .formatFail (beginStep s))
  | rejects (h : i = .busy) (hs : s.sstate ≠ .idle) : Effect i s (rejectBusy (beginStep s))

/-- Inversion of exec: a next state is one of the effects. -/
theorem exec_effect {i : Instr} {s t : State} (h : exec i s = .next t) : Effect i s t := by
  cases i
  case protbyte p v => cases h; exact .feeds [_] rfl
  case digit p d => cases h; exact .feeds [_] rfl
  case term => cases h; exact .feeds [_] rfl
  case cmdInit o a b k => cases h; exact .pure (some _) rfl rfl (by simp)
  case cmdCount c1 c2 =>
    simp only [exec, execCmdCount] at h
    split at h <;> cases h
    exact .pure (some _) rfl rfl (by simp)
  case rspDeverr body => cases h; exact .feeds _ rfl
  case rspInit m body => cases h; exact .feeds _ rfl
  case rspCount m body => cases h; exact .feeds _ rfl
  case rspMismatch data => cases h; exact .feeds _ rfl
  case rspIgnored data => cases h; exact .feeds _ rfl
  case nop => cases h; exact .pure none rfl rfl (by simp)
  case issueInit o a b k => cases h; exact .issues _ _ rfl
  case issueCount c1 c2 =>
    simp only [exec, execIssueCount] at h
    split at h <;> cases h
    exact .issues _ _ rfl
  case codecReset => cases h; exact .clears rfl
  case feed b => cases h; exact .feeds [_] rfl
  case txpop =>
    simp only [exec, execTxpop] at h
    split at h <;> cases h
    exact .pops _ _ rfl ‹_›
  case reset => cases h; exact .resets rfl
  case sessionConsume evs => cases h; exact .consumes _ rfl
  case classify f =>
    simp only [exec, execClassify] at h
    split at h
    · next hs =>
      split at h <;> cases h
      have := Effect.consumes (i := .classify f) (s := s) _ rfl
      simpa [consumeEvent, hs] using this
    · cases h
  case complete r =>
    simp only [exec, execComplete] at h
    split at h
    · cases h
    · split at h <;> cases h
      exact .completes _ rfl ‹_›
  case fold =>
    simp only [exec, execFold] at h
    split at h <;> cases h
    exact .folds rfl ‹_›
  case linkErrorCompletion e =>
    simp only [exec, execLinkErrorCompletion] at h
    split at h <;> cases h
    have := Effect.consumes (i := .linkErrorCompletion e) (s := s) _ rfl
    have hs : s.sstate = .awaitingResponse := ‹_›
    simpa [consumeEvent, hs] using this
  case formatFailCompletion =>
    simp only [exec, execFormatFailCompletion] at h
    split at h
    · cases h
    · split at h <;> cases h
      exact .failsFormat rfl ‹_›
  case busy =>
    simp only [exec, execBusy] at h
    split at h <;> cases h
    exact .rejects rfl ((busyFlag_iff s).mp ‹_›)
  case encInit o a b k => cases h; exact .pure (some _) rfl rfl (by simp)
  case encCount c1 c2 =>
    simp only [exec, execEncCount] at h
    split at h <;> cases h
    exact .pure (some _) rfl rfl (by simp)
  case decInit f =>
    simp only [exec, execDecInit] at h
    split at h <;> cases h
    exact .pure (some _) rfl rfl (by simp)
  case decCount f =>
    simp only [exec, execDecCount] at h
    split at h
    · split at h <;> cases h <;> exact .pure (some _) rfl rfl (by simp)
    · cases h
  case dpenc n =>
    simp only [exec, execDpenc] at h
    split at h <;> cases h
    exact .pure (some _) rfl rfl (by simp)
  case dpdec hi lo =>
    simp only [exec, execDpdec] at h
    split at h <;> cases h <;> exact .pure (some _) rfl rfl (by simp)
  case par7 v => cases h; exact .pure (some _) rfl rfl (by simp)
  case prot v => cases h; exact .pure (some _) rfl rfl (by simp)
  case parityOk b => cases h; exact .pure (some _) rfl rfl (by simp)
  case protectedAt off =>
    simp only [exec, execProtectedAt] at h
    split at h <;> cases h
    exact .pure (some _) rfl rfl (by simp)

/-- An operation that a port selects has an encoding: no internal micro-operation is ever selected. -/
theorem decode_encodable {ctx : Ctx} {w : PortWord} {i : Instr} (h : decode ctx w = .ok i) : (encode ctx.cfg i).isSome = true := by
  cases w with
  | receive v b => cases v <;> cases h; rfl
  | transmit r => simp only [decode] at h; split at h <;> cases h; rfl
  | hostCommand op a b c d =>
    simp only [decode, decodeHost] at h
    repeat' split at h
    all_goals cases h
    all_goals rfl
  | resetPin r => cases r <;> cases h; rfl
  | wireByte b =>
    simp only [decode, Except.ok.injEq] at h
    subst h
    unfold decodeByte
    repeat' split
    all_goals rfl
  | fromDevice f =>
    simp only [decode, decodeFromDevice] at h
    split at h
    · cases h
    · split at h
      · cases h; rfl
      · cases h
        unfold decodeResponse
        repeat' split
        all_goals rfl
  | toDevice f =>
    simp only [decode, decodeToDevice] at h
    repeat' split at h
    all_goals cases h
    all_goals rfl

/-- Inversion of step: nothing was selected, or the operation the first offered word decodes to ran. -/
theorem step_next {s t : State} (h : step s = .next t) :
    (∃ rest, t = { beginStep s with inputs := rest }) ∨
    (∃ i w rest, s.inputs = w :: rest ∧ decode (ctxOf s) w = .ok i ∧ exec i { s with inputs := rest } = .next t) := by
  simp only [step, fetch] at h
  split at h
  · next u hu =>
    cases h
    split at hu
    · cases hu; exact .inl ⟨s.inputs, rfl⟩
    · next w rest hw =>
      simp only [select] at hu
      split at hu
      · cases hu
      · cases hu; exact .inl ⟨rest, rfl⟩
      · cases hu
  · next i u hu =>
    split at hu
    · cases hu
    · next w rest hw =>
      simp only [select] at hu
      split at hu
      · next j hj => cases hu; exact .inr ⟨i, w, rest, hw, hj, h⟩
      · cases hu
      · cases hu
  · cases h

end Sys2Proof.Machine
end

