-- ==== Sys2Proof/Laws/PerInstr.lean ====
section
/-!
SUPPORT. The family RoundTrip, one lemma per operation: decoding the word of a well-formed operation in the context its row
stands in gives the operation back (spec/30_encoding.md R90 to R118).
-/
namespace Sys2Proof.Laws.RoundTrip

open Sys2Proof Sys2Proof.Machine

/-- What the family says of one operation. -/
def Statement (i : Instr) : Prop :=
  ∀ (ctx : Ctx) (w : PortWord), ctx.cfg.WF → WellFormed ctx.cfg i → inContext ctx i = true → encode ctx.cfg i = some w →
    decode ctx w = .ok i

/-- An operation without an encoding says nothing. -/
theorem of_none {i : Instr} (h : ∀ cfg, encode cfg i = none) : Statement i :=
  fun _ _ _ _ _ he => by rw [h] at he; cases he

/-- It is enough to decode the operation's own word. -/
theorem of_word {i : Instr} {w : Config → PortWord} (hw : ∀ cfg, encode cfg i = some (w cfg))
    (h : ∀ ctx, ctx.cfg.WF → WellFormed ctx.cfg i → inContext ctx i = true → decode ctx (w ctx.cfg) = .ok i) : Statement i := by
  intro ctx w' hg hf hc he
  rw [hw] at he
  cases he
  exact h ctx hg hf hc

/-- A protected byte that is no digit decodes to itself (R90). -/
theorem decodeByte_prot {cfg : Config} (hg : cfg.WF) (v : Val7) (h : (digitOf cfg (joinByte false v)).isNone = true) :
    decodeByte cfg (joinByte (par7 v) v) = .protbyte (par7 v) v := by
  have hd : digitOf cfg (joinByte (par7 v) v) = none := by simpa [digitOf] using h
  have hp : parityOk (joinByte (par7 v) v) = true := parityOk_prot v
  simp [decodeByte, ne_term hg hp, hp, hd]

/-- A protected digit decodes to itself (R94). -/
theorem decodeByte_digit {cfg : Config} (hg : cfg.WF) (d : BitVec 4) (h : d.toNat ≤ 9) :
    decodeByte cfg (joinByte (par7 (digitCode cfg d.toNat)) (digitCode cfg d.toNat)) =
      .digit (par7 (digitCode cfg d.toNat)) d := by
  have hp : parityOk (joinByte (par7 (digitCode cfg d.toNat)) (digitCode cfg d.toNat)) = true := parityOk_prot _
  simp [decodeByte, ne_term hg hp, hp, digitOf_joinByte hg h]

/-- Both digit pairs of a command decode (R95, R101). -/
theorem commandPair_dpenc {cfg : Config} (hg : cfg.WF) {f : Bytes} {off n : Nat} (hn : n ≤ COUNT_MAX)
    (h1 : f[off]? = some (Machine.prot (digitCode cfg (n / 10))))
    (h2 : f[off + 1]? = some (Machine.prot (digitCode cfg (n % 10)))) :
    commandPair cfg f off = some n := by
  simp [commandPair, h1, h2, dpdec_dpenc hg hn]

theorem protbyte (p : Bool) (v : Val7) : Statement (.protbyte p v) :=
  of_word (fun _ => rfl) fun ctx hg hf hc => by
    have hp : p = Machine.par7 v := of_decide_eq_true hf
    subst hp
    exact congrArg _ (decodeByte_prot hg v hc)

theorem digit (p : Bool) (d : BitVec 4) : Statement (.digit p d) :=
  of_word (fun _ => rfl) fun ctx hg hf _ => by
    obtain ⟨hd, hp⟩ : d.toNat ≤ 9 ∧ p = Machine.par7 (digitCode ctx.cfg d.toNat) := of_decide_eq_true hf
    subst hp
    exact congrArg _ (decodeByte_digit hg d hd)

theorem term : Statement .term :=
  of_word (fun _ => rfl) fun ctx _ _ _ => congrArg Except.ok (if_pos rfl : decodeByte ctx.cfg ctx.cfg.term = .term)

theorem cmdInit (o t b k : Byte) : Statement (.cmdInit o t b k) :=
  of_word (fun _ => rfl) fun ctx _ _ _ => by simp [decode, decodeToDevice, encInit]

theorem cmdCount (c1 c2 : Nat) : Statement (.cmdCount c1 c2) :=
  of_word (fun _ => rfl) fun ctx hg hf _ => by
    obtain ⟨h1, h2⟩ : c1 ≤ COUNT_MAX ∧ c2 ≤ COUNT_MAX := of_decide_eq_true hf
    have p1 : commandPair ctx.cfg (encCount ctx.cfg c1 c2) 4 = some c1 := commandPair_dpenc hg h1 rfl rfl
    have p2 : commandPair ctx.cfg (encCount ctx.cfg c1 c2) 6 = some c2 := commandPair_dpenc hg h2 rfl rfl
    have hne : ∀ o t b k, encCount ctx.cfg c1 c2 ≠ encInit ctx.cfg o t b k := by
      intro o t b k h
      have := congrArg List.length h
      simp [encCount, encInit, dpenc] at this
    obtain ⟨b3, b4, b5, b10, e3, e4, e5, e10⟩ : ∃ x y z u, (encCount ctx.cfg c1 c2)[3]? = some x ∧ (encCount ctx.cfg c1 c2)[4]? = some y ∧
      (encCount ctx.cfg c1 c2)[5]? = some z ∧ (encCount ctx.cfg c1 c2)[10]? = some u := ⟨_, _, _, _, rfl, rfl, rfl, rfl⟩
    simp [decode, decodeToDevice, e3, e4, e5, e10, hne, p1, p2]

theorem rspDeverr (body : Bytes) : Statement (.rspDeverr body) :=
  of_word (fun _ => rfl) fun ctx hg hf hc => by
    have hd : DataBytes ctx.cfg (ctx.cfg.errmark :: body) := by
      have : DataBytes ctx.cfg body := of_decide_eq_true hf
      have ht := hg.termApart
      simp only [Config.rawBytes, List.mem_cons, not_or] at ht
      simp_all [DataBytes]
    obtain ⟨k, hk⟩ := Option.isSome_iff_exists.mp hc
    simp [decode, decodeFromDevice, deverrFrame, openFrame_close hd, hk, decodeResponse]

theorem rspInit (m : Byte) (body : Bytes) : Statement (.rspInit m body) :=
  of_word (fun _ => rfl) fun ctx hg hf hc => by
    obtain ⟨hm, hd⟩ : m ≠ ctx.cfg.errmark ∧ DataBytes ctx.cfg (m :: body) := of_decide_eq_true hf
    have hd' : DataBytes ctx.cfg (m :: (expHeader ctx.cfg .kInit).1 :: (expHeader ctx.cfg .kInit).2 :: body) := by
      have ht := hg.termApart
      simp only [Config.rawBytes, List.mem_cons, not_or] at ht
      simp_all [DataBytes, expHeader]
    have hk : ctx.outstanding = some .kInit := by simpa [inContext] using hc
    simp [decode, decodeFromDevice, headedFrame, openFrame_close hd', hk, decodeResponse, hm]

theorem rspCount (m : Byte) (body : Bytes) : Statement (.rspCount m body) :=
  of_word (fun _ => rfl) fun ctx hg hf hc => by
    obtain ⟨hm, hd⟩ : m ≠ ctx.cfg.errmark ∧ DataBytes ctx.cfg (m :: body) := of_decide_eq_true hf
    have hd' : DataBytes ctx.cfg (m :: (expHeader ctx.cfg .kCount).1 :: (expHeader ctx.cfg .kCount).2 :: body) := by
      have ht := hg.termApart
      simp only [Config.rawBytes, List.mem_cons, not_or] at ht
      simp_all [DataBytes, expHeader]
    have hk : ctx.outstanding = some .kCount := by simpa [inContext] using hc
    simp [decode, decodeFromDevice, headedFrame, openFrame_close hd', hk, decodeResponse, hm]

theorem rspMismatch (data : Bytes) : Statement (.rspMismatch data) :=
  of_word (fun _ => rfl) fun ctx hg hf hc => by
    obtain ⟨hm, hd⟩ : isDeviceError ctx.cfg data = false ∧ DataBytes ctx.cfg data := of_decide_eq_true hf
    obtain ⟨k, hk, hh⟩ : ∃ k, ctx.outstanding = some k ∧ headerMatches ctx.cfg k data = false := by
      simpa [inContext, Option.any_eq_true] using hc
    have key : decodeResponse ctx.cfg k data = .rspMismatch data := by
      match data with
      | [] => rfl
      | [m] => simp_all [decodeResponse, isDeviceError]
      | [m, _] => simp_all [decodeResponse, isDeviceError]
      | m :: h0 :: h1 :: body =>
        have hne : m ≠ ctx.cfg.errmark := by simpa [isDeviceError] using hm
        have : ¬ (h0 = (expHeader ctx.cfg k).1 ∧ h1 = (expHeader ctx.cfg k).2) := by simpa [headerMatches] using hh
        simp only [decodeResponse, if_neg hne, if_neg this]
    simp [decode, decodeFromDevice, openFrame_close hd, hk, key]

theorem rspIgnored (data : Bytes) : Statement (.rspIgnored data) :=
  of_word (fun _ => rfl) fun ctx hg hf hc => by
    have hd : DataBytes ctx.cfg data := of_decide_eq_true hf
    have hk : ctx.outstanding = none := by simpa [inContext] using hc
    simp [decode, decodeFromDevice, openFrame_close hd, hk]

theorem nop : Statement .nop := of_word (fun _ => rfl) fun _ _ _ _ => rfl

theorem issueInit (o t b k : Byte) : Statement (.issueInit o t b k) := of_word (fun _ => rfl) fun _ _ _ _ => rfl

theorem issueCount (c1 c2 : Nat) : Statement (.issueCount c1 c2) :=
  of_word (fun _ => rfl) fun ctx hg hf _ => by
    obtain ⟨h1, h2⟩ : c1 ≤ COUNT_MAX ∧ c2 ≤ COUNT_MAX := of_decide_eq_true hf
    simp only [COUNT_MAX] at h1 h2
    have e1 : (BitVec.ofNat 8 c1).toNat = c1 := by simp; omega
    have e2 : (BitVec.ofNat 8 c2).toNat = c2 := by simp; omega
    simp only [decode, decodeHost, e1, e2, inRange, COUNT_MAX]
    simp [h1, h2]

theorem codecReset : Statement .codecReset := of_word (fun _ => rfl) fun _ _ _ _ => rfl

theorem feed (b : Byte) : Statement (.feed b) := of_word (fun _ => rfl) fun _ _ _ _ => rfl

theorem txpop : Statement .txpop :=
  of_word (fun _ => rfl) fun ctx _ _ hc => by
    have : ctx.txValid = true := hc
    simp [decode, this]

theorem reset : Statement .reset := of_word (fun _ => rfl) fun _ _ _ _ => rfl

theorem sessionConsume (evs : List CodecEvent) : Statement (.sessionConsume evs) := of_none fun _ => rfl
theorem classify (f : Bytes) : Statement (.classify f) := of_none fun _ => rfl
theorem complete (r : Resolution) : Statement (.complete r) := of_none fun _ => rfl
theorem fold : Statement .fold := of_none fun _ => rfl
theorem linkErrorCompletion (e : LinkErr) : Statement (.linkErrorCompletion e) := of_none fun _ => rfl
theorem formatFailCompletion : Statement .formatFailCompletion := of_none fun _ => rfl
theorem busy : Statement .busy := of_none fun _ => rfl
theorem encInit (o t b k : Byte) : Statement (.encInit o t b k) := of_none fun _ => rfl
theorem encCount (c1 c2 : Nat) : Statement (.encCount c1 c2) := of_none fun _ => rfl
theorem decInit (f : Bytes) : Statement (.decInit f) := of_none fun _ => rfl
theorem decCount (f : Bytes) : Statement (.decCount f) := of_none fun _ => rfl
theorem dpenc (n : Nat) : Statement (.dpenc n) := of_none fun _ => rfl
theorem dpdec (hi lo : Byte) : Statement (.dpdec hi lo) := of_none fun _ => rfl
theorem par7 (v : Val7) : Statement (.par7 v) := of_none fun _ => rfl
theorem prot (v : Val7) : Statement (.prot v) := of_none fun _ => rfl
theorem parityOk (b : Byte) : Statement (.parityOk b) := of_none fun _ => rfl
theorem protectedAt (off : Nat) : Statement (.protectedAt off) := of_none fun _ => rfl

end Sys2Proof.Laws.RoundTrip
end

