-- ==== Sys2Proof/Tests/Slice0.lean ====
section
/-!
SUPPORT. Tests of the model's own: ill-formed terms that WellFormed refuses, words written out from the spec's encodings, small
one-step tests with the expected results of spec/95_test_vectors.md, and for every statement of Certificates/Slice0 that has
hypotheses a witness that meets them.
-/
namespace Sys2Proof.Tests

open Sys2Proof Sys2Proof.Machine

/-! Helpers. -/

/-- The next state of an outcome. -/
def after (o : Machine.Outcome) : Option State :=
  match o with
  | .next s => some s
  | .fault _ => none
  | .refused _ => none

/-- The refusal of an outcome. -/
def refusal (o : Machine.Outcome) : Option Refusal :=
  match o with
  | .refused r => some r
  | .next _ => none
  | .fault _ => none

/-- The events of an operation. -/
def eventsOf (i : Instr) (s : State) : Option (List Event) := (after (exec i s)).map (·.events)

/-- The value an operation returns. -/
def resultOf (i : Instr) (s : State) : Option MicroResult := (after (exec i s)).bind (·.result)

/-- The operation a port word decodes to. -/
def decoded (ctx : Ctx) (w : PortWord) : Option Instr :=
  match decode ctx w with
  | .ok i => some i
  | .error _ => none

/-- Why a port word is refused. -/
def decodeFails (ctx : Ctx) (w : PortWord) : Option DecodeError :=
  match decode ctx w with
  | .error e => some e
  | .ok _ => none

/-- The spec's configuration (R7, R8). -/
abbrev cfg0 : Config := Config.default

/-- Idle, nothing outstanding. -/
def ctx0 : Ctx := ⟨cfg0, none, false⟩

/-- After RESET (R320). -/
def idle : State := State.reset

/-- A request outstanding, nothing received. -/
def outstanding (k : Kind) : State := awaiting k State.reset

/-- F4's start state: PROTSEL = PS_COUNT, RXBUF[0] = E0, RXLEN = `n + 1`, no request outstanding. -/
def receiving (n : Nat) : State := { State.reset with protSel := .psCount, rxBuf := 0xE0 :: List.replicate n 0 }

/-- The least FRAME_MAX, for the tests at the buffer's end. -/
def small : State := { State.reset with cfg := { Config.default with frameMax := 52 } }

/-- `small` with the buffer full (RXLEN = FRAME_MAX - 1). -/
def full : State := { small with rxBuf := List.replicate 51 0 }

/-- A Count outstanding under a PROTMAP that holds at the one offset `o`. -/
def checking (o : Nat) : State :=
  { outstanding .kCount with cfg := { Config.default with protMap := [(.psCount, o)] } }

/-- The data bytes of the Count response CR of 95_test_vectors.md section 2.7, the four pairs written out. -/
def crData (a1 a2 r1 r2 : Bytes) : Bytes :=
  [0xE0, 0x03, 0x99] ++ List.replicate 36 0 ++ a1 ++ a2 ++ List.replicate 4 0 ++ r1 ++ r2

/-- P2's response: 07, 11, 00, 01. -/
def p2Data : Bytes := crData [0x30, 0xB7] [0xB1, 0xB1] [0x30, 0x30] [0x30, 0xB1]

/-! WellFormed: an ill-formed term for each check, refused, and a well-formed one beside it. -/

/-- 0x38 has three ones: its parity bit is 1 (R160's example). -/
theorem test_wf_protbyte : wellFormed cfg0 (.protbyte false 0x38) = false ∧ wellFormed cfg0 (.protbyte true 0x38) = true := by decide
/-- 8 is carried as B8; 10 is no digit (R94). -/
theorem test_wf_digit : wellFormed cfg0 (.digit false 8) = false ∧ wellFormed cfg0 (.digit true 10) = false ∧
    wellFormed cfg0 (.digit false 10) = false ∧ wellFormed cfg0 (.digit true 8) = true := by decide
theorem test_wf_cmdCount : wellFormed cfg0 (.cmdCount 100 0) = false ∧ wellFormed cfg0 (.cmdCount 0 100) = false ∧
    wellFormed cfg0 (.cmdCount 99 99) = true := by decide
theorem test_wf_rspDeverr : wellFormed cfg0 (.rspDeverr [0x45, 0x1C]) = false ∧ wellFormed cfg0 (.rspDeverr []) = true := by decide
theorem test_wf_rspInit : wellFormed cfg0 (.rspInit 0xF0 []) = false ∧ wellFormed cfg0 (.rspInit 0xE0 [0x1C]) = false ∧
    wellFormed cfg0 (.rspInit 0x1C []) = false ∧ wellFormed cfg0 (.rspInit 0xE0 []) = true := by decide
theorem test_wf_rspCount : wellFormed cfg0 (.rspCount 0xF0 []) = false ∧ wellFormed cfg0 (.rspCount 0xE0 [0x1C]) = false ∧
    wellFormed cfg0 (.rspCount 0x1C []) = false ∧ wellFormed cfg0 (.rspCount 0xE0 []) = true := by decide
theorem test_wf_rspMismatch : wellFormed cfg0 (.rspMismatch [0xF0]) = false ∧ wellFormed cfg0 (.rspMismatch [0x1C]) = false ∧
    wellFormed cfg0 (.rspMismatch []) = true := by decide
theorem test_wf_rspIgnored : wellFormed cfg0 (.rspIgnored [0x1C]) = false ∧ wellFormed cfg0 (.rspIgnored [0xF0]) = true := by decide
theorem test_wf_issueCount : wellFormed cfg0 (.issueCount 100 0) = false ∧ wellFormed cfg0 (.issueCount 0 100) = false ∧
    wellFormed cfg0 (.issueCount 99 99) = true := by decide
theorem test_wf_classify : wellFormed cfg0 (.classify []) = false ∧ wellFormed cfg0 (.classify [0xE0]) = false ∧
    wellFormed cfg0 (.classify [0x1C, 0x1C]) = false ∧ wellFormed cfg0 (.classify [0x1C]) = true := by decide
theorem test_wf_encCount : wellFormed cfg0 (.encCount 100 0) = false ∧ wellFormed cfg0 (.encCount 0 100) = false ∧
    wellFormed cfg0 (.encCount 99 99) = true := by decide
theorem test_wf_decInit : wellFormed cfg0 (.decInit [0xE0, 0x02, 0x34]) = false ∧ wellFormed cfg0 (.decInit [0xF0, 0x02, 0x34, 0x1C]) = false ∧
    wellFormed cfg0 (.decInit [0xE0, 0x03, 0x99, 0x1C]) = false ∧ wellFormed cfg0 (.decInit [0xE0, 0x02, 0x34, 0x1C]) = true := by decide
theorem test_wf_decCount : wellFormed cfg0 (.decCount [0xE0, 0x03, 0x99]) = false ∧ wellFormed cfg0 (.decCount [0xF0, 0x03, 0x99, 0x1C]) = false ∧
    wellFormed cfg0 (.decCount [0xE0, 0x02, 0x34, 0x1C]) = false ∧ wellFormed cfg0 (.decCount [0xE0, 0x03, 0x99, 0x1C]) = true := by decide
theorem test_wf_dpenc : wellFormed cfg0 (.dpenc 100) = false ∧ wellFormed cfg0 (.dpenc 99) = true := by decide

/-! Decoding, from words written out from the spec. -/

/-- Section 2.1: B8 is the digit 8, 9C the protected form of 1C, FF the protected form of 7F (R90, R94). -/
theorem test_decode_digit : decoded ctx0 (.wireByte 0xB8) = some (.digit true 8) ∧
    decoded ctx0 (.wireByte 0x39) = some (.digit false 9) := by decide
theorem test_decode_protbyte : decoded ctx0 (.wireByte 0x9C) = some (.protbyte true 0x1C) ∧
    decoded ctx0 (.wireByte 0x3A) = some (.protbyte false 0x3A) ∧
    decoded ctx0 (.wireByte 0xFF) = some (.protbyte true 0x7F) := by decide
/-- 1C is TERM; E0's parity is wrong: a raw byte (R91, R92). -/
theorem test_decode_term_and_raw : decoded ctx0 (.wireByte 0x1C) = some .term ∧
    decoded ctx0 (.wireByte 0xE0) = some (.feed 0xE0) := by decide
/-- Section 2.4, row 4. -/
theorem test_decode_cmdInit : decoded ctx0 (.toDevice
    [0x60, 0x02, 0x0D, 0x01, 0x7A, 0x9B, 0x00, 0x00, 0x00, 0x00, 0x0C, 0x0C, 0x0C, 0x0C, 0x1C]) =
    some (.cmdInit 0x01 0x7A 0x9B 0x0C) := by decide
/-- Section 2.5, row 1. -/
theorem test_decode_cmdCount : decoded ctx0 (.toDevice
    [0x60, 0x03, 0x15, 0xE4, 0x30, 0xB8, 0xB1, 0xB2, 0x30, 0x30, 0x30, 0x30, 0x30, 0xB4, 0x30, 0xB4, 0x30, 0xB4, 0x30, 0xB4,
      0x03, 0x03, 0x03, 0x03, 0x1C]) = some (.cmdCount 8 12) := by decide
/-- One thickness byte differs from the others: no command (R100, R110). -/
theorem test_decode_no_command : decodeFails ctx0 (.toDevice
    [0x60, 0x02, 0x0D, 0x01, 0x7A, 0x9B, 0x00, 0x00, 0x00, 0x00, 0x0C, 0x0C, 0x0D, 0x0C, 0x1C]) = some .notACommand := by decide
/-- R111, in its order. -/
theorem test_decode_rspDeverr : decoded ⟨cfg0, some .kCount, false⟩ (.fromDevice [0xF0, 0x03, 0x99, 0x1C]) =
    some (.rspDeverr [0x03, 0x99]) := by decide
theorem test_decode_rspInit : decoded ⟨cfg0, some .kInit, false⟩ (.fromDevice [0x00, 0x02, 0x34, 0x41, 0x42, 0x43, 0x1C]) =
    some (.rspInit 0x00 [0x41, 0x42, 0x43]) := by decide
theorem test_decode_rspCount : decoded ⟨cfg0, some .kCount, false⟩ (.fromDevice [0xE0, 0x03, 0x99, 0x07, 0x1C]) =
    some (.rspCount 0xE0 [0x07]) := by decide
/-- S4 to S6, S19. -/
theorem test_decode_rspMismatch : decoded ⟨cfg0, some .kInit, false⟩ (.fromDevice [0x1C]) = some (.rspMismatch []) ∧
    decoded ⟨cfg0, some .kInit, false⟩ (.fromDevice [0xE0, 0x02, 0x1C]) = some (.rspMismatch [0xE0, 0x02]) ∧
    decoded ⟨cfg0, some .kInit, false⟩ (.fromDevice [0xE0, 0x02, 0x35, 0x1C]) = some (.rspMismatch [0xE0, 0x02, 0x35]) ∧
    decoded ⟨cfg0, some .kCount, false⟩ (.fromDevice [0xE0, 0x02, 0x34, 0x1C]) = some (.rspMismatch [0xE0, 0x02, 0x34]) := by decide
theorem test_decode_rspIgnored : decoded ctx0 (.fromDevice [0xF0, 0x1C]) = some (.rspIgnored [0xF0]) := by decide
/-- No TERM at the end, and TERM inside: no frame (R96). -/
theorem test_decode_no_frame : decodeFails ctx0 (.fromDevice [0xE0, 0x02]) = some .notAFrame ∧
    decodeFails ctx0 (.fromDevice [0xE0, 0x1C, 0x02, 0x1C]) = some .notAFrame := by decide
/-- P1 line 1, P2 line 1, and hc_op 0 and 3 with their lanes ignored (R118). -/
theorem test_decode_host : decoded ctx0 (.hostCommand 1 0x00 0x42 0x42 0x0B) = some (.issueInit 0x00 0x42 0x42 0x0B) ∧
    decoded ctx0 (.hostCommand 2 0x08 0x0C 0x55 0x55) = some (.issueCount 8 12) ∧
    decoded ctx0 (.hostCommand 0 1 2 3 4) = some .nop ∧
    decoded ctx0 (.hostCommand 3 1 2 3 4) = some .codecReset := by decide
/-- A count of 100 is no operation, one of 99 is (R205). -/
theorem test_decode_count_range : decodeFails ctx0 (.hostCommand 2 100 0 0 0) = some .operandRange ∧
    decodeFails ctx0 (.hostCommand 2 0 100 0 0) = some .operandRange ∧
    decoded ctx0 (.hostCommand 2 99 99 0 0) = some (.issueCount 99 99) := by decide
/-- R260: the valid signals. -/
theorem test_decode_ports : decoded ctx0 (.receive true 0x55) = some (.feed 0x55) ∧
    decoded ⟨cfg0, none, true⟩ (.transmit true) = some .txpop ∧ decoded ctx0 (.resetPin true) = some .reset := by decide
theorem test_decode_idle_ports : decodeFails ctx0 (.receive false 0x55) = some .portIdle ∧
    decodeFails ctx0 (.transmit true) = some .portIdle ∧ decodeFails ⟨cfg0, none, true⟩ (.transmit false) = some .portIdle ∧
    decodeFails ctx0 (.resetPin false) = some .portIdle := by decide

/-- The table's words on their ports (opcode_table.json's match numbers). -/
theorem test_table_words : decodeTableWord 8 0x1C = some .term ∧ decodeTableWord 24 0x60020D = some (.cmdInit 0 0 0 0) ∧
    decodeTableWord 32 0x600315E4 = some (.cmdCount 0 0) ∧ decodeTableWord 8 0xF0 = some (.rspDeverr []) ∧
    decodeTableWord 16 0x0234 = some (.rspInit 0 []) ∧ decodeTableWord 16 0x0399 = some (.rspCount 0 []) ∧
    decodeTableWord 8 0xB8 = some (.digit true 8) := by decide
theorem test_table_host_words : decodeTableWord 8 0 = some .nop ∧ decodeTableWord 8 1 = some (.issueInit 0 0 0 0) ∧
    decodeTableWord 8 2 = some (.issueCount 0 0) ∧ decodeTableWord 8 3 = some .codecReset := by decide
/-- And step runs them first after reset. -/
theorem test_step_runs_table_words :
    (after (step (State.reset.withFetchWord 8 1))).map (·.events) = some [.issueOutcome .accepted] ∧
    (after (step (State.reset.withFetchWord 8 0xF0))).map (·.resErr) = some .eDevice ∧
    (after (step (State.reset.withFetchWord 16 0x0234))).map (·.resOk) = some true ∧
    (after (step (State.reset.withFetchWord 16 0x0399))).map (·.resErr) = some .eFormat ∧
    (after (step (State.reset.withFetchWord 8 0x1C))).map (·.lstat) = some .lsOk := by decide

/-! One step of each operation. -/

/-- 9C and 31 are stored as they are; B8 is digit 8 (F6, F20). -/
theorem test_protbyte : (after (exec (.protbyte true 0x1C) idle)).map (·.rxBuf) = some [0x9C] := by decide
theorem test_digit : (after (exec (.digit true 8) idle)).map (·.rxBuf) = some [0xB8] := by decide
/-- The digit 1 without its parity bit, at a protected offset (F4). -/
theorem test_digit_parity : eventsOf (.digit false 1) (receiving 0x26) = some [.linkStatus (.err .parity)] := by decide
/-- F1. -/
theorem test_term : eventsOf .term idle = some [.linkStatus .ok, .frame [0x1C]] := by decide
/-- F7: the terminator wins over parity. -/
theorem test_term_protected : ((after (exec .term (receiving 0x26))).map fun s => (s.rxMode, s.rxLen, s.lstat)) =
    some (.assemble, 0, .lsOk) := by decide
/-- Section 2.4, row 1. -/
theorem test_cmdInit : resultOf (.cmdInit 0x00 0x42 0x42 0x0B) idle = some (.bytes
    [0x60, 0x02, 0x0D, 0x00, 0x42, 0x42, 0x00, 0x00, 0x00, 0x00, 0x0B, 0x0B, 0x0B, 0x0B, 0x1C]) := by decide
/-- Section 2.5, row 3. -/
theorem test_cmdCount : resultOf (.cmdCount 99 99) idle = some (.bytes
    [0x60, 0x03, 0x15, 0xE4, 0x39, 0x39, 0x39, 0x39, 0x30, 0x30, 0x30, 0x30, 0x30, 0xB4, 0x30, 0xB4, 0x30, 0xB4, 0x30, 0xB4,
      0x03, 0x03, 0x03, 0x03, 0x1C]) := by decide
/-- P4 line 3. -/
theorem test_rspDeverr : eventsOf (.rspDeverr [0x45, 0x31]) (outstanding .kCount) = some [.linkStatus .ok,
    .frame [0xF0, 0x45, 0x31, 0x1C], .completion ⟨.errored, .kCount, false, .eDevice, none, some [0xF0, 0x45, 0x31, 0x1C]⟩] := by
  decide
/-- S17's exemption, with a PROTMAP that holds at offset 1 (R8, R135). -/
theorem test_rspDeverr_exempt : ((after (exec (.rspDeverr [0x31]) (checking 1))).map fun s => (s.resErr, s.rawLen)) =
    some (.eDevice, 3) := by decide
/-- P1 line 3. -/
theorem test_rspInit : eventsOf (.rspInit 0xE0 []) (outstanding .kInit) = some [.linkStatus .ok,
    .frame [0xE0, 0x02, 0x34, 0x1C], .completion ⟨.responded, .kInit, true, .eNone, none, none⟩] := by decide
/-- S14's kind: a matching header and a frame too short to decode. -/
theorem test_rspCount : eventsOf (.rspCount 0xE0 [0x30]) (outstanding .kCount) = some [.linkStatus .ok,
    .frame [0xE0, 0x03, 0x99, 0x30, 0x1C], .completion ⟨.responded, .kCount, false, .eFormat, none, none⟩] := by decide
/-- P3 line 2, with a PROTMAP that holds at offset 3: the byte 37 fails; the rest of the frame, its TERM too, is dropped. -/
theorem test_rspCount_parity : ((after (exec (.rspCount 0xE0 [0x37, 0xB1, 0xB1]) (checking 3))).map fun s =>
    (s.events, s.rxMode, s.lstat)) =
    some ([.linkStatus (.err .parity), .completion ⟨.errored, .kCount, false, .eLinkParity, none, none⟩],
      .assemble, .lsParity) := by decide
/-- P2 line 3, its last byte: the 51 data bytes stored, the TERM fed. -/
theorem test_count_response : ((after (exec (.feed 0x1C) { outstanding .kCount with rxBuf := p2Data })).map fun s =>
    (s.resOk, s.acc1, s.acc2, s.rej1, s.rej2)) = some (true, 7, 11, 0, 1) := by decide
/-- P5. -/
theorem test_rspMismatch : eventsOf (.rspMismatch [0xE0, 0x02, 0x34]) (outstanding .kCount) = some [.linkStatus .ok,
    .frame [0xE0, 0x02, 0x34, 0x1C], .completion ⟨.errored, .kCount, false, .eHeaderMismatch, none, none⟩] := by decide
/-- S21. -/
theorem test_rspIgnored : eventsOf (.rspIgnored [0xE0, 0x02, 0x34]) idle =
    some [.linkStatus .ok, .frame [0xE0, 0x02, 0x34, 0x1C]] := by decide
theorem test_nop : after (exec .nop (outstanding .kInit)) = some (outstanding .kInit) := by decide
/-- P1 line 1. -/
theorem test_issueInit : ((after (exec (.issueInit 0x00 0x42 0x42 0x0B) idle)).map fun s =>
    (s.sstate, s.pendKind, s.protSel, s.txq)) = some (.awaitingResponse, .kInit, .psInit,
    [0x60, 0x02, 0x0D, 0x00, 0x42, 0x42, 0x00, 0x00, 0x00, 0x00, 0x0B, 0x0B, 0x0B, 0x0B, 0x1C,
      0x60, 0x02, 0x0D, 0x00, 0x42, 0x42, 0x00, 0x00, 0x00, 0x00, 0x0B, 0x0B, 0x0B, 0x0B, 0x1C]) := by decide
/-- P4 line 2. -/
theorem test_issueInit_busy : ((after (exec (.issueInit 0 1 1 1) (outstanding .kCount))).map fun s =>
    (s.events, s.pendKind, s.protSel, s.txq)) = some ([.issueOutcome .busy], .kCount, .psCount, []) := by decide
/-- P2 line 1. -/
theorem test_issueCount : ((after (exec (.issueCount 8 12) idle)).map fun s => (s.sstate, s.pendKind, s.protSel, s.txq.drop 25)) =
    some (.awaitingResponse, .kCount, .psCount,
    [0x60, 0x03, 0x15, 0xE4, 0x30, 0xB8, 0xB1, 0xB2, 0x30, 0x30, 0x30, 0x30, 0x30, 0xB4, 0x30, 0xB4, 0x30, 0xB4, 0x30, 0xB4,
      0x03, 0x03, 0x03, 0x03, 0x1C]) := by decide
/-- Section 2.5's last row. -/
theorem test_issueCount_range : refusal (exec (.issueCount 100 0) idle) = some .operandRange := by decide
/-- F19. -/
theorem test_codecReset : ((after (exec .codecReset (receiving 4))).map fun s => (s.rxLen, s.rxMode, s.lstat, s.protSel)) =
    some (0, .assemble, .lsNone, .psCount) := by decide
/-- F8: the same byte as F4 under the error marker is stored. -/
theorem test_feed_exempt : ((after (exec (.feed 0x31) { receiving 0x26 with rxBuf := 0xF0 :: List.replicate 0x26 0 })).map fun s =>
    (s.events, s.rxLen)) = some ([], 0x28) := by decide
/-- F17's case at the least FRAME_MAX. -/
theorem test_feed_overflow : ((after (exec (.feed 0x00) full)).map fun s => (s.events, s.rxMode, s.rxLen)) =
    some ([.linkStatus (.err .overflow)], .drop, 0) := by decide
/-- T1's first byte, and T2. -/
theorem test_txpop : ((after (exec .txpop { idle with txq := [0x60, 0x03] })).map fun s => (s.events, s.txq)) =
    some ([.txByte 0x60], [0x03]) := by decide
theorem test_txpop_empty : refusal (exec .txpop idle) = some .txqEmpty := by decide
/-- T3. -/
theorem test_reset : ((after (exec .reset { outstanding .kCount with txq := [0x60], rxBuf := [0, 0] })).map fun s =>
    (s.sstate, s.txq, s.rxLen, s.protSel, s.events)) = some (.idle, [], 0, .psNone, []) := by decide
/-- R208: the second event meets the SSTATE the first left. -/
theorem test_sessionConsume : eventsOf (.sessionConsume [.linkStatus (.err .parity), .frame [0xF0, 0x1C]]) (outstanding .kInit) =
    some [.completion ⟨.errored, .kInit, false, .eLinkParity, none, none⟩] := by decide
/-- S18: the marker beats a matching header. -/
theorem test_classify_marker : ((after (exec (.classify [0xF0, 0x03, 0x99, 0x1C]) (outstanding .kCount))).map fun s =>
    (s.resErr, s.rawFrame)) = some (.eDevice, [0xF0, 0x03, 0x99, 0x1C]) := by decide
/-- S12: one byte too short. -/
theorem test_classify_short : ((after (exec (.classify (p2Data.dropLast ++ [0x1C])) (outstanding .kCount))).map fun s =>
    (s.resErr, s.events)) = some (.eFormat, [.completion ⟨.responded, .kCount, false, .eFormat, none, none⟩]) := by decide
/-- R218, and none while Idle (R266). -/
theorem test_complete : eventsOf (.complete .headerMismatch) { outstanding .kInit with sstate := .errored } =
    some [.completion ⟨.errored, .kInit, false, .eHeaderMismatch, none, none⟩] := by decide
theorem test_complete_idle : refusal (exec (.complete .initOk) idle) = some .noRequest := by decide
/-- R220, R222. -/
theorem test_fold : (after (exec .fold { idle with sstate := .responded })).map (·.sstate) = some .idle := by decide
theorem test_fold_awaiting : refusal (exec .fold (outstanding .kInit)) = some .wouldCancel := by decide
/-- S9's last event. -/
theorem test_linkErrorCompletion : eventsOf (.linkErrorCompletion .overflow) (outstanding .kInit) =
    some [.completion ⟨.errored, .kInit, false, .eLinkOverflow, none, none⟩] := by decide
/-- R217. -/
theorem test_formatFailCompletion : eventsOf .formatFailCompletion { outstanding .kCount with sstate := .responded } =
    some [.completion ⟨.responded, .kCount, false, .eFormat, none, none⟩] := by decide
/-- S22. -/
theorem test_busy : eventsOf .busy (outstanding .kCount) = some [.issueOutcome .busy] := by decide
/-- Section 2.4, row 5; section 2.5, row 5. -/
theorem test_encInit : resultOf (.encInit 0x00 0x1C 0x42 0x0B) idle = some (.bytes
    [0x60, 0x02, 0x0D, 0x00, 0x1C, 0x42, 0x00, 0x00, 0x00, 0x00, 0x0B, 0x0B, 0x0B, 0x0B, 0x1C]) := by decide
theorem test_encCount : resultOf (.encCount 10 7) idle = some (.bytes
    [0x60, 0x03, 0x15, 0xE4, 0xB1, 0x30, 0x30, 0xB7, 0x30, 0x30, 0x30, 0x30, 0x30, 0xB4, 0x30, 0xB4, 0x30, 0xB4, 0x30, 0xB4,
      0x03, 0x03, 0x03, 0x03, 0x1C]) := by decide
/-- R241's example. -/
theorem test_decInit : resultOf (.decInit [0x00, 0x02, 0x34, 0x41, 0x42, 0x43, 0x1C]) (outstanding .kInit) = some .success := by decide
/-- R247; S13: 41 is no digit. -/
theorem test_decCount : resultOf (.decCount (p2Data ++ [0x1C])) (outstanding .kCount) = some (.counts ⟨7, 11, 0, 1⟩) := by decide
theorem test_decCount_nondigit : resultOf (.decCount (crData [0x41, 0xB7] [0xB1, 0xB1] [0x30, 0x30] [0x30, 0xB1] ++ [0x1C]))
    (outstanding .kCount) = some .formatFail := by decide
/-- Section 2.2. -/
theorem test_dpenc : resultOf (.dpenc 8) idle = some (.bytes [0x30, 0xB8]) ∧ resultOf (.dpenc 12) idle = some (.bytes [0xB1, 0xB2]) ∧
    resultOf (.dpenc 99) idle = some (.bytes [0x39, 0x39]) := by decide
theorem test_dpenc_range : refusal (exec (.dpenc 100) idle) = some .operandRange := by decide
/-- Section 2.3. -/
theorem test_dpdec : resultOf (.dpdec 0x30 0xB7) idle = some (.number 7) ∧ resultOf (.dpdec 0xB0 0x37) idle = some (.number 7) ∧
    resultOf (.dpdec 0xB9 0xB9) idle = some (.number 99) := by decide
theorem test_dpdec_not_digits : resultOf (.dpdec 0x3A 0x30) idle = some .notDigits ∧ resultOf (.dpdec 0x2F 0x30) idle = some .notDigits ∧
    resultOf (.dpdec 0x30 0x41) idle = some .notDigits ∧ resultOf (.dpdec 0x00 0x00) idle = some .notDigits := by decide
/-- Section 2.1. -/
theorem test_par7 : resultOf (.par7 0x38) idle = some (.flag true) ∧ resultOf (.par7 0) idle = some (.flag false) ∧
    resultOf (.par7 127) idle = some (.flag true) := by decide
theorem test_prot : resultOf (.prot 0x38) idle = some (.byte 0xB8) ∧ resultOf (.prot 0x1C) idle = some (.byte 0x9C) := by decide
theorem test_parityOk : resultOf (.parityOk 0xB8) idle = some (.flag true) ∧ resultOf (.parityOk 0x38) idle = some (.flag false) ∧
    resultOf (.parityOk 0x80) idle = some (.flag false) := by decide
/-- F4, F10, F11, F13: the edges of the protected offsets. -/
theorem test_protected : ([0x26, 0x27, 0x2A, 0x2B, 0x2E, 0x2F, 0x32, 0x33].map fun o => resultOf (.protectedAt o) (receiving 0)) =
    [some (.flag false), some (.flag true), some (.flag true), some (.flag false), some (.flag false), some (.flag true),
      some (.flag true), some (.flag false)] := by decide
/-- Under the marker, and under PS_INIT (F8, F9). -/
theorem test_protected_exempt : resultOf (.protectedAt 0x27) { receiving 0 with rxBuf := [0xF0] } = some (.flag false) ∧
    resultOf (.protectedAt 0x27) { receiving 0 with protSel := .psInit } = some (.flag false) := by decide

/-! Configurations: the spec's is well formed; one that breaks each condition of Config.WF is not. -/

theorem wf_default : Config.default.WF := ⟨by decide, by decide, by decide, by decide, by decide, by decide, by decide⟩
theorem wf_small : small.cfg.WF := ⟨by decide, by decide, by decide, by decide, by decide, by decide, by decide⟩
/-- FRAME_MAX of 51, and an offset past the largest frame (R8). -/
theorem test_config_frameMax : ¬ ({ cfg0 with frameMax := 51 } : Config).WF ∧ ¬ ({ cfg0 with offAcc1 := 254 } : Config).WF :=
  ⟨fun h => absurd h.frameMax (by decide), fun h => absurd h.room (by decide)⟩
/-- Digit codes past 127 (R168), a threshold D does not carry (R165). -/
theorem test_config_digits : ¬ ({ cfg0 with digitBase := 119 } : Config).WF ∧ ¬ ({ cfg0 with rejectThreshold := 100 } : Config).WF :=
  ⟨fun h => absurd h.digits (by decide), fun h => absurd h.threshold (by decide)⟩
/-- TERM of right parity (R93), ERRMARK of wrong parity (R135), TERM inside a command (R183 f). -/
theorem test_config_raw : ¬ ({ cfg0 with term := 0x9C } : Config).WF ∧ ¬ ({ cfg0 with errmark := 0xF1 } : Config).WF ∧
    ¬ ({ cfg0 with retryCount := 0x1C } : Config).WF :=
  ⟨fun h => absurd h.termRaw (by decide), fun h => absurd h.markParity (by decide), fun h => absurd h.termApart (by decide)⟩
/-- The constants are arguments: another terminator ends the frame, another copy count is transmitted (R7, R21). -/
theorem test_config_is_an_argument :
    eventsOf (.feed 0x0D) { idle with cfg := { cfg0 with term := 0x0D }, rxBuf := [0xE0] } =
      some [.linkStatus .ok, .frame [0xE0, 0x0D]] ∧
    (after (exec (.issueInit 0 1 2 3) { idle with cfg := { cfg0 with txCopies := 3 } })).map (·.txq.length) = some 45 := by decide

/-! Witnesses: for every statement with hypotheses, a state and operands that meet them, clause by clause, at the edges of the
ranges. -/

theorem witness_FeedInDropDiscards : ({ idle with rxMode := .drop } : State).rxMode = .drop := rfl
theorem witness_FeedTermCompletesTheFrame : (outstanding .kCount).rxMode = .assemble := rfl

/-- Both clauses: Idle and AwaitingResponse, the buffer full. -/
theorem witness_FeedOverflowDropsTheFrame : full.rxMode = .assemble ∧ (0 : Byte) ≠ full.cfg.term ∧ full.rxLen = full.cfg.frameMax - 1 ∧
    full.sstate ≠ .awaitingResponse ∧ (awaiting .kInit full).sstate = .awaitingResponse ∧
    (awaiting .kInit full).rxLen = (awaiting .kInit full).cfg.frameMax - 1 := by decide

/-- Both clauses, at the first protected offset and (with no request) at the last. -/
theorem witness_FeedParityFailureDropsTheFrame : (receiving 0x26).rxMode = .assemble ∧ (0x31 : Byte) ≠ (receiving 0x26).cfg.term ∧
    (receiving 0x26).rxLen < (receiving 0x26).cfg.frameMax - 1 ∧
    isProtected (receiving 0x26) (receiving 0x26).rxLen = true ∧ isProtected (receiving 0x31) (receiving 0x31).rxLen = true ∧
    (0x31 : Byte).getLsbD 7 ≠ par7 ((0x31 : Byte).setWidth 7) ∧ (receiving 0x26).sstate ≠ .awaitingResponse ∧
    (awaiting .kCount (receiving 0x26)).sstate = .awaitingResponse ∧
    isProtected (awaiting .kCount (receiving 0x26)) (awaiting .kCount (receiving 0x26)).rxLen = true := by decide

/-- A protected offset with right parity, one past the last protected offset, and the last place of the buffer. -/
theorem witness_FeedStoresTheByte : (receiving 0x26).rxMode = .assemble ∧ (0xB1 : Byte) ≠ (receiving 0x26).cfg.term ∧
    (receiving 0x26).rxLen ≠ (receiving 0x26).cfg.frameMax - 1 ∧ parityOk 0xB1 = true ∧
    isProtected (receiving 0x32) (receiving 0x32).rxLen = false ∧
    ({ small with rxBuf := List.replicate 50 0 } : State).rxLen ≠ small.cfg.frameMax - 1 := by decide

/-- The codec's invariants hold of the full buffer. -/
theorem witness_FeedEmitsOneOfFiveShapes : CodecInv full ∧
    Event.frame (full.rxBuf ++ [full.cfg.term]) ∈ ((eventsOf (.feed full.cfg.term) full).getD []) :=
  ⟨⟨wf_small, by decide, by decide, by decide⟩, by decide⟩

theorem witness_FeedWithoutRequestIsIgnoredByTheSession : idle.sstate ≠ .awaitingResponse ∧
    ({ idle with sstate := .errored } : State).sstate ≠ .awaitingResponse := by decide

/-- An Idle and a busy session over the same codec. -/
theorem witness_CodecDoesNotConsultTheSession : (receiving 3).rxMode = ({ receiving 3 with sstate := .awaitingResponse } : State).rxMode ∧
    (receiving 3).rxBuf = ({ receiving 3 with sstate := .awaitingResponse } : State).rxBuf ∧
    (receiving 3).protSel = ({ receiving 3 with sstate := .awaitingResponse } : State).protSel ∧
    (receiving 3).lstat = ({ receiving 3 with sstate := .awaitingResponse } : State).lstat ∧
    (receiving 3).cfg = ({ receiving 3 with sstate := .awaitingResponse } : State).cfg := by decide

theorem witness_FeedTermClassifiesTheFrame : (outstanding .kInit).rxMode = .assemble ∧
    (outstanding .kInit).sstate = .awaitingResponse := by decide

/-- The least marker frame, and one that carries the expected header. -/
theorem witness_ClassifyDeviceError : (outstanding .kCount).sstate = .awaitingResponse ∧
    [0xF0, 0x1C].head? = some (outstanding .kCount).cfg.errmark ∧ [0xF0, 0x03, 0x99, 0x1C].head? = some (outstanding .kCount).cfg.errmark := by decide

/-- Each of the three clauses: the empty frame, a wrong first byte, a wrong second byte. -/
theorem witness_ClassifyHeaderMismatch : (outstanding .kInit).sstate = .awaitingResponse ∧
    ([0x1C] : Bytes) ≠ [] ∧ ([0x1C] : Bytes).head? ≠ some (outstanding .kInit).cfg.errmark ∧ ([0x1C] : Bytes).length < 3 ∧
    ([0xE0, 0x03, 0x34, 0x1C] : Bytes)[1]? ≠ some (expHeader (outstanding .kInit).cfg .kInit).1 ∧
    ([0xE0, 0x02, 0x35, 0x1C] : Bytes)[2]? ≠ some (expHeader (outstanding .kInit).cfg .kInit).2 := by decide

theorem witness_ClassifyInitializeSuccess : (outstanding .kInit).sstate = .awaitingResponse ∧ (outstanding .kInit).pendKind = .kInit ∧
    ([0xE0, 0x02, 0x34, 0x1C] : Bytes).head? ≠ some (outstanding .kInit).cfg.errmark ∧ 3 ≤ ([0xE0, 0x02, 0x34, 0x1C] : Bytes).length ∧
    ([0xE0, 0x02, 0x34, 0x1C] : Bytes)[1]? = some (outstanding .kInit).cfg.initRspHdr.1 ∧ ([0xE0, 0x02, 0x34, 0x1C] : Bytes)[2]? = some (outstanding .kInit).cfg.initRspHdr.2 := by decide

/-- The least decodable response, and S11's counts of 99. -/
theorem witness_ClassifyCountSuccess : (outstanding .kCount).sstate = .awaitingResponse ∧ (outstanding .kCount).pendKind = .kCount ∧
    (close cfg0 p2Data).head? ≠ some (outstanding .kCount).cfg.errmark ∧ (close cfg0 p2Data)[1]? = some (outstanding .kCount).cfg.countRspHdr.1 ∧ (close cfg0 p2Data)[2]? = some (outstanding .kCount).cfg.countRspHdr.2 ∧
    decCount cfg0 (close cfg0 p2Data) = some ⟨7, 11, 0, 1⟩ ∧
    decCount cfg0 (close cfg0 (crData [0x39, 0x39] [0x39, 0x39] [0x39, 0x39] [0x39, 0x39])) = some ⟨99, 99, 99, 99⟩ := by decide

/-- One byte too short, and a non-digit in the last pair. -/
theorem witness_ClassifyFormatFailure : (close cfg0 p2Data.dropLast).head? ≠ some (outstanding .kCount).cfg.errmark ∧ (close cfg0 p2Data.dropLast)[1]? = some (outstanding .kCount).cfg.countRspHdr.1 ∧
    (close cfg0 p2Data.dropLast)[2]? = some (outstanding .kCount).cfg.countRspHdr.2 ∧ decCount cfg0 (close cfg0 p2Data.dropLast) = none ∧
    decCount cfg0 (close cfg0 (crData [0x30, 0x30] [0x30, 0x30] [0x30, 0x30] [0x30, 0x3A])) = none := by decide

theorem witness_ClassifyRunsOnlyOnAFrameOfARequest : idle.sstate ≠ .awaitingResponse ∧
    (outstanding .kInit).sstate = .awaitingResponse := by decide
theorem witness_SessionConsumesEventsInOrder : idle.sstate ≠ .awaitingResponse ∧
    (outstanding .kInit).sstate = .awaitingResponse ∧ ([0x1C] : Bytes) ≠ [] := by decide

/-- Every outcome, in the transient state it is reached in; and Idle. -/
theorem witness_CompleteEndsTheRequestOnce : ({ outstanding .kCount with sstate := .responded } : State).sstate ≠ .idle ∧
    fitsKind (.countOk ⟨0, 0, 99, 99⟩) .kCount = true ∧ fitsKind .formatFail .kCount = true ∧ fitsKind .initOk .kInit = true ∧
    fitsKind (.linkError .parity) .kInit = true ∧ fitsKind (.deviceError [0xF0, 0x1C]) .kCount = true ∧
    fitsKind .headerMismatch .kInit = true ∧ idle.sstate = .idle := by decide
theorem witness_FoldReturnsToIdle : ({ idle with sstate := .errored } : State).sstate ≠ .awaitingResponse ∧
    (outstanding .kInit).sstate = .awaitingResponse := by decide
theorem witness_LinkErrorFailsTheRequest : (outstanding .kCount).sstate = .awaitingResponse := rfl
theorem witness_FormatFailCompletesACount : ({ outstanding .kCount with sstate := .responded } : State).sstate ≠ .idle ∧
    ({ outstanding .kCount with sstate := .responded } : State).pendKind = .kCount := by decide

/-- The empty body, and a body that fills the least FRAME_MAX. -/
theorem witness_DeviceErrorFrameAlwaysFailsTheRequest : (awaiting .kCount small).cfg.WF ∧
    (awaiting .kCount small).sstate = .awaitingResponse ∧
    (awaiting .kCount small).rxMode = .assemble ∧ (awaiting .kCount small).rxBuf = [] ∧ DataBytes small.cfg [] ∧
    DataBytes small.cfg (List.replicate 50 0x31) ∧ (List.replicate 50 (0x31 : Byte)).length + 2 ≤ (awaiting .kCount small).cfg.frameMax :=
  ⟨wf_small, by decide, by decide, by decide, by decide, by decide, by decide⟩

/-- Bytes that all pass PARITY_OK pass the check. -/
theorem passesCheck_of_parity {s : State} {data : Bytes} (h : ∀ b ∈ data, parityOk b = true) : PassesCheck s data :=
  fun _ b hb _ => .inr (h b (List.mem_of_getElem? hb))

/-- Where PROTMAP never holds everything passes the check. -/
theorem passesCheck_of_init {s : State} (hc : s.cfg.protMap = Config.default.protMap) (hp : s.protSel ≠ .psCount) (data : Bytes) :
    PassesCheck s data := by
  intro off b _ h
  rw [protMap, hc] at h
  cases hs : s.protSel <;> simp_all [Config.default, pairMap]

/-- The shortest Initialize response. -/
theorem witness_InitializeResponseFrameSucceeds : (outstanding .kInit).sstate = .awaitingResponse ∧ (outstanding .kInit).pendKind = .kInit ∧
    (0xE0 : Byte) ≠ (outstanding .kInit).cfg.errmark ∧ FrameArrives (outstanding .kInit) [0xE0, 0x02, 0x34] :=
  ⟨rfl, rfl, by decide, rfl, rfl, by decide, by decide, passesCheck_of_init rfl (by decide) _⟩

/-- Both clauses: P2's response, and a short one. -/
theorem witness_CountResponseFrameIsDecoded : (outstanding .kCount).sstate = .awaitingResponse ∧ (outstanding .kCount).pendKind = .kCount ∧
    (0x00 : Byte) ≠ (outstanding .kCount).cfg.errmark ∧ FrameArrives (outstanding .kCount) (0x00 :: p2Data.drop 1) ∧
    decCount cfg0 (close cfg0 (0x00 :: p2Data.drop 1)) = some ⟨7, 11, 0, 1⟩ ∧
    FrameArrives (outstanding .kCount) [0x00, 0x03, 0x99] ∧ decCount cfg0 (close cfg0 [0x00, 0x03, 0x99]) = none :=
  ⟨rfl, rfl, by decide, ⟨rfl, rfl, by decide, by decide, passesCheck_of_parity (by decide)⟩, by decide,
    ⟨rfl, rfl, by decide, by decide, passesCheck_of_parity (by decide)⟩, by decide⟩

/-- The empty frame, and each header byte wrong alone. -/
theorem witness_OtherFrameIsAHeaderMismatch : (outstanding .kInit).cfg.WF ∧ (outstanding .kInit).sstate = .awaitingResponse ∧ FrameArrives (outstanding .kInit) [] ∧
    FrameArrives (outstanding .kInit) [0xE0, 0x03, 0x34] ∧ FrameArrives (outstanding .kInit) [0xE0, 0x02, 0x35] ∧
    ([] : Bytes).head? ≠ some (outstanding .kInit).cfg.errmark ∧ ([] : Bytes)[1]? ≠ some (expHeader (outstanding .kInit).cfg .kInit).1 ∧
    ([0xE0, 0x03, 0x34] : Bytes)[1]? ≠ some (expHeader (outstanding .kInit).cfg .kInit).1 ∧ ([0xE0, 0x02, 0x35] : Bytes)[2]? ≠ some (expHeader (outstanding .kInit).cfg .kInit).2 :=
  ⟨wf_default, rfl, ⟨rfl, rfl, by decide, by decide, passesCheck_of_init rfl (by decide) _⟩,
    ⟨rfl, rfl, by decide, by decide, passesCheck_of_init rfl (by decide) _⟩,
    ⟨rfl, rfl, by decide, by decide, passesCheck_of_init rfl (by decide) _⟩, by decide, by decide, by decide, by decide⟩

theorem witness_FrameWithoutRequestIsIgnored : idle.sstate ≠ .awaitingResponse ∧ FrameArrives idle [0xF0] :=
  ⟨by decide, rfl, rfl, by decide, by decide, passesCheck_of_init rfl (by decide) _⟩

/-- The spec's configuration, for the clauses that need it. -/
theorem witness_CommandFramesHaveTheirLayout : idle.cfg = Config.default ∧ 99 ≤ 99 ∧ 99 < 100 := by decide
theorem witness_EncodersReturnTheCommand : idle.cfg = Config.default ∧ 99 ≤ 99 := by decide
/-- 99 is in range, 100 is not: CMD_COUNT, ISSUE_COUNT, ENC_COUNT, the Count command and DPENC share the bound. -/
theorem witness_count_range : 99 ≤ 99 ∧ 99 < 100 := by decide
theorem witness_IssueInitArmsAndTransmitsTwice : idle.cfg = Config.default ∧ idle.sstate = .idle ∧ (outstanding .kCount).sstate ≠ .idle := by decide
theorem witness_IssueCountArmsAndTransmitsTwice : idle.cfg = Config.default ∧ idle.sstate = .idle ∧ (outstanding .kInit).sstate ≠ .idle ∧ 99 ≤ 99 ∧
    (99 : Byte).toNat ≤ 99 := by decide
theorem witness_IssueWhileNotIdleIsBusy : (outstanding .kInit).sstate ≠ .idle ∧
    ({ idle with sstate := .responded } : State).sstate ≠ .idle := by decide

/-- The second clause: 100 offered on each lane. -/
theorem witness_IssueCountAboveNinetyNineIsRefused :
    ({ idle with inputs := [.hostCommand 2 100 0 0 0] } : State).inputs = .hostCommand 2 100 0 0 0 :: [] ∧ 99 < (100 : Byte).toNat ∧
    refusal (step { idle with inputs := [.hostCommand 2 0 100 0 0] }) = some (.undecodable .operandRange) := by decide
theorem witness_TxpopTakesTheHead : ({ idle with txq := [0x60, 0x02] } : State).txq = 0x60 :: [0x02] ∧ idle.txq = [] := by decide

/-- Both clauses; the refusal's five grounds are met by Idle, by a Count, by the marker, and by each header byte. -/
theorem witness_DecodeInitializeReadsNothing : (outstanding .kInit).sstate ≠ .idle ∧ (outstanding .kInit).pendKind = .kInit ∧
    ([0xE0, 0x02, 0x34, 0x1C] : Bytes).head? ≠ some (outstanding .kInit).cfg.errmark ∧ ([0xE0, 0x02, 0x34, 0x1C] : Bytes)[1]? = some (outstanding .kInit).cfg.initRspHdr.1 ∧
    ([0xE0, 0x02, 0x34, 0x1C] : Bytes)[2]? = some (outstanding .kInit).cfg.initRspHdr.2 ∧ idle.sstate = .idle ∧ (outstanding .kCount).pendKind ≠ .kInit ∧
    ([0xF0, 0x02, 0x34, 0x1C] : Bytes).head? = some (outstanding .kInit).cfg.errmark ∧ ([0xE0, 0x03, 0x34, 0x1C] : Bytes)[1]? ≠ some (outstanding .kInit).cfg.initRspHdr.1 ∧
    ([0xE0, 0x02, 0x35, 0x1C] : Bytes)[2]? ≠ some (outstanding .kInit).cfg.initRspHdr.2 := by decide

/-- The four pairs at their offsets, in the frame of exactly 52 bytes; 51 bytes; a non-digit in the last pair. -/
theorem witness_DecodeCountReadsFourDigitPairs : (outstanding .kCount).sstate ≠ .idle ∧ (outstanding .kCount).pendKind = .kCount ∧
    (outstanding .kCount).cfg.countRspMin ≤ (close cfg0 p2Data).length ∧
    (∀ i : Fin 4, (close cfg0 p2Data)[cfg0.fieldBase + [cfg0.offAcc1, cfg0.offAcc2, cfg0.offRej1, cfg0.offRej2].getD i 0]? = some ([0x30, 0xB1, 0x30, 0x30].getD i 0) ∧
      (close cfg0 p2Data)[cfg0.fieldBase + [cfg0.offAcc1, cfg0.offAcc2, cfg0.offRej1, cfg0.offRej2].getD i 0 + 1]? = some ([0xB7, 0xB1, 0x30, 0xB1].getD i 0) ∧
      dpdec cfg0 ([0x30, 0xB1, 0x30, 0x30].getD i 0) ([0xB7, 0xB1, 0x30, 0xB1].getD i 0) = some ([7, 11, 0, 1].getD i 0)) ∧
    (close cfg0 p2Data.dropLast).length < (outstanding .kCount).cfg.countRspMin ∧ dpdec cfg0 0x30 0x3A = none := by decide

/-- Right parity, and a pair with wrong parity that still decodes. -/
theorem witness_DigitPairsRoundTrip : cfg0.WF ∧ 99 ≤ 99 ∧ dpdec cfg0 0x30 0xB7 = some 7 ∧ dpdec cfg0 0x30 0x37 = some 7 ∧ parityOk 0x37 = false :=
  ⟨wf_default, by decide⟩
/-- A configuration of the counts' command. -/
theorem witness_CountCommandIsOneFrame : cfg0.WF ∧ 99 ≤ 99 := ⟨wf_default, by decide⟩
theorem witness_ParityDetectsSingleBitErrors : (0 : Fin 8) ≠ 7 := by decide

/-- An unprotected offset, offset 0, a stored byte; and the refused read. -/
theorem witness_ProtectedFollowsProtmapAndTheMarker : (idle.protSel, 0x27) ∉ idle.cfg.protMap ∧ (receiving 0).rxBuf ≠ [] ∧
    ((outstanding .kCount).protSel, 0x27) ∈ (outstanding .kCount).cfg.protMap ∧ 1 ≤ 0x27 ∧ (outstanding .kCount).rxBuf = [] := by decide

/-- A response row in its context. -/
theorem witness_DecodeOfEncodeIsTheOperation : cfg0.WF ∧ WellFormed cfg0 (.rspInit 0xE0 []) ∧ inContext ⟨cfg0, some .kInit, false⟩ (.rspInit 0xE0 []) = true ∧
    encode cfg0 (.rspInit 0xE0 []) = some (.fromDevice [0xE0, 0x02, 0x34, 0x1C]) :=
  ⟨wf_default, by decide⟩

/-- Each clause: an operation, an idle port, nothing offered, no operation. -/
theorem witness_StepRunsTheOfferedOperation :
    decoded ⟨cfg0, none, false⟩ (.receive true 0x55) = some (.feed 0x55) ∧ decodeFails ⟨cfg0, none, false⟩ (.transmit true) = some .portIdle ∧
    idle.inputs = [] ∧ decodeFails ⟨cfg0, none, false⟩ (.fromDevice []) = some .notAFrame ∧ DecodeError.notAFrame ≠ .portIdle := by decide

/-- The invariant and a next state: a byte offered after reset. -/
theorem witness_EveryStepKeepsTheInvariant : Inv { idle with inputs := [.receive true 0xE0] } ∧
    (after (step { idle with inputs := [.receive true 0xE0] })).map (·.rxBuf) = some [0xE0] :=
  ⟨⟨⟨wf_default, by decide, by decide, by decide⟩, ⟨.inl rfl, by decide⟩,
    ⟨by decide, by decide, by decide, by decide, by decide, by decide, by decide, by decide, by decide, .inl rfl⟩⟩, by decide⟩

theorem witness_TransmitQueueIsFirstInFirstOut : (after (exec .txpop { idle with txq := [0x60, 0x03] })).map (·.txq) = some [0x03] ∧
    Instr.txpop ≠ .reset := by decide

/-- A step that completes, and one that does not. -/
theorem witness_ExactlyOneCompletionPerRequest :
    (match fetch { outstanding .kInit with inputs := [.receive true 0x1C] } with
      | .operation i u => (eventsOf i u).map fun evs => (completions evs).length
      | .noStep _ => none
      | .rejected _ => none) = some 1 ∧
    (match fetch { idle with inputs := [.receive true 0x1C] } with
      | .operation i u => (eventsOf i u).map fun evs => (completions evs).length
      | .noStep _ => none
      | .rejected _ => none) = some 0 := by decide

theorem witness_RegistersHaveOnlyTheirWriters : (after (exec (.feed 0x55) idle)).isSome = true ∧ isIssue (.feed 0x55) = false ∧
    feedsCodec .codecReset = false ∧ Instr.codecReset ≠ .reset := by decide

/-- Two states after reset that differ in every unread register. -/
theorem witness_UnspecifiedRegistersAreNeverRead :
    SameButUnread idle { idle with
      lstat := .lsParity, resValid := true, resOk := true, resErr := .eFormat, resKind := .kCount,
      acc1 := 1, acc2 := 2, rej1 := 3, rej2 := 4, rawFrame := [0xF0, 0x1C], pendKind := .kCount } :=
  ⟨rfl, by decide⟩

/-- Both link errors, with a next frame that passes the check. -/
theorem witness_ResynchronisationLeavesNoResidue : (receiving 0x26).rxMode = .assemble ∧ (0x31 : Byte) ≠ (receiving 0x26).cfg.term ∧
    isProtected (receiving 0x26) (receiving 0x26).rxLen = true ∧ parityOk 0x31 = false ∧ full.rxLen = full.cfg.frameMax - 1 ∧
    DataBytes full.cfg [0xB1, 0xB1] ∧ DataBytes full.cfg (0x00 :: p2Data.drop 1) ∧ (0x00 :: p2Data.drop 1).length + 1 ≤ full.cfg.frameMax ∧
    PassesCheck (receiving 0x26) (0x00 :: p2Data.drop 1) ∧ PassesCheck full (0x00 :: p2Data.drop 1) :=
  ⟨rfl, by decide, by decide, by decide, by decide, by decide, by decide, by decide, passesCheck_of_parity (by decide),
    passesCheck_of_init rfl (by decide) _⟩

end Sys2Proof.Tests
end

/-! PROOFS. The scope's statements (spec/00_scope.md): the constants of R7, one step (R13), PROTECTED (R132), the step's
events when a frame ends (R13, R208), and the invariant of the machine (R143). -/

namespace Sys2Proof

open Sys2Proof.Machine

/-! The configuration. -/

theorem Config.default_wf : Config.default.WF :=
  ⟨by decide, by decide, by decide, by decide, by decide, by decide, by decide⟩

/-- INIT_LEN and COUNT_LEN come out of the layouts alone. -/
theorem commandLengths (cfg : Config) : initLen cfg = 15 ∧ countLen cfg = 25 := ⟨rfl, rfl⟩

/-- Settles O57: the values are the fields' own, and the lengths hold for every configuration. -/
theorem configDefaultHasTheSpecValues : Obligations.ConfigDefaultHasTheSpecValues :=
  ⟨rfl, Config.default_wf, rfl, rfl, rfl, rfl, rfl, rfl, rfl, rfl, rfl, rfl, rfl, rfl, rfl, rfl, rfl, rfl, rfl,
    commandLengths, rfl, rfl, rfl⟩

/-! One step, by what the ports select (R261, R305). -/

namespace Machine

theorem fetch_nil {s : State} (h : s.inputs = []) : fetch s = .noStep (beginStep s) := by
  simp [fetch, h]

theorem fetch_cons {s : State} {w : PortWord} {rest : List PortWord} (h : s.inputs = w :: rest) :
    fetch s = select (decode (ctxOf s) w) { s with inputs := rest } := by
  simp [fetch, h]

@[simp] theorem select_ok (i : Instr) (s : State) : select (.ok i) s = .operation i s := rfl

@[simp] theorem select_portIdle (s : State) : select (.error .portIdle) s = .noStep (beginStep s) := rfl

theorem select_error {e : DecodeError} (h : e ≠ .portIdle) (s : State) : select (.error e) s = .rejected e := by
  cases e with
  | portIdle => exact absurd rfl h
  | operandRange => rfl
  | notAFrame => rfl
  | notACommand => rfl

theorem step_of_fetch_noStep {s t : State} (h : fetch s = .noStep t) : step s = .next t := by
  simp [step, h]

theorem step_of_fetch_operation {s t : State} {i : Instr} (h : fetch s = .operation i t) : step s = exec i t := by
  simp [step, h]

theorem step_of_fetch_rejected {s : State} {e : DecodeError} (h : fetch s = .rejected e) :
    step s = .refused (.undecodable e) := by
  simp [step, h]

/-- What hands its own events to the session is a micro-operation, which no port selects. -/
theorem encode_of_consumed {i : Instr} {evs : List CodecEvent} (cfg : Config) (h : consumed i = some evs) :
    encode cfg i = none := by
  unfold consumed at h
  split at h
  · rfl
  · rfl
  · rfl
  · cases h

end Machine

/-- Settles O49: the first offered word's decoding selects one of the three cases of `fetch`. -/
theorem stepRunsTheOfferedOperation : Obligations.StepRunsTheOfferedOperation := by
  refine ⟨fun s w rest i hw hd => ?_, fun s w rest hw hd => ?_, fun s hw => ?_, fun s w rest e hw hne hd => ?_⟩
  · have hd : decode (ctxOf s) w = .ok i := hd
    exact step_of_fetch_operation (by rw [fetch_cons hw, hd, select_ok])
  · have hd : decode (ctxOf s) w = .error .portIdle := hd
    exact step_of_fetch_noStep (by rw [fetch_cons hw, hd, select_portIdle]; rfl)
  · exact step_of_fetch_noStep (fetch_nil hw)
  · have hd : decode (ctxOf s) w = .error e := hd
    exact step_of_fetch_rejected (by rw [fetch_cons hw, hd, select_error hne])

/-! PROTECTED (R132, R135). -/

namespace Machine

theorem protMap_iff (cfg : Config) (sel : ProtSel) (off : Nat) : protMap cfg sel off = true ↔ (sel, off) ∈ cfg.protMap :=
  List.contains_iff_mem

theorem isDeviceError_iff (cfg : Config) (f : Bytes) : isDeviceError cfg f = true ↔ f.head? = some cfg.errmark :=
  beq_iff_eq

theorem isProtected_iff (s : State) (off : Nat) :
    isProtected s off = true ↔ (s.protSel, off) ∈ s.cfg.protMap ∧ ¬ (1 ≤ off ∧ s.rxBuf.head? = some s.cfg.errmark) := by
  simp only [isProtected, protectedOff, Bool.and_eq_true, protMap_iff, Bool.not_eq_true', ← Bool.not_eq_true,
    decide_eq_true_eq, isDeviceError_iff]

/-- PROTECTED answers unless it would read RXBUF[0] of an empty buffer (R25). -/
theorem execProtectedAt_answers {s : State} {off : Nat}
    (h : (s.protSel, off) ∉ s.cfg.protMap ∨ off = 0 ∨ s.rxBuf ≠ []) :
    execProtectedAt off s = answer (.flag (isProtected s off)) s := by
  refine if_neg fun hc => ?_
  simp only [Bool.and_eq_true, protMap_iff, decide_eq_true_eq, List.isEmpty_iff] at hc
  obtain ⟨⟨hmap, hoff⟩, hbuf⟩ := hc
  obtain h | h | h := h
  · exact h hmap
  · omega
  · exact h hbuf

theorem execProtectedAt_refuses {s : State} {off : Nat} (hmap : (s.protSel, off) ∈ s.cfg.protMap) (hoff : 1 ≤ off)
    (hbuf : s.rxBuf = []) : execProtectedAt off s = .refused .bufferUndefined := by
  refine if_pos ?_
  simp only [Bool.and_eq_true, protMap_iff, decide_eq_true_eq, List.isEmpty_iff]
  exact ⟨⟨hmap, hoff⟩, hbuf⟩

/-- A PROTMAP of digit pairs holds under PS_COUNT, at each pair's offset and the one after it (R8). -/
theorem mem_pairMap (offs : List Nat) (sel : ProtSel) (off : Nat) :
    (sel, off) ∈ pairMap offs ↔ sel = .psCount ∧ ∃ o ∈ offs, off = o ∨ off = o + 1 := by
  simp only [pairMap, List.mem_flatMap, List.mem_cons, Prod.mk.injEq, List.not_mem_nil, or_false, ← and_or_left]
  exact ⟨fun ⟨o, ho, hs, h⟩ => ⟨hs, o, ho, h⟩, fun ⟨hs, o, ho, h⟩ => ⟨o, ho, hs, h⟩⟩

end Machine

/-- Settles O46: the flag is `isProtected`'s, the refusal the undefined read's, and the default PROTMAP is four pairs. -/
theorem protectedFollowsProtmapAndTheMarker : Obligations.ProtectedFollowsProtmapAndTheMarker := by
  refine ⟨fun s off h => ?_, fun s off hmap hoff hbuf => execProtectedAt_refuses hmap hoff hbuf, fun sel off => ?_⟩
  · have hflag : isProtected s off =
        decide ((s.protSel, off) ∈ s.cfg.protMap ∧ ¬ (1 ≤ off ∧ s.rxBuf.head? = some s.cfg.errmark)) := by
      rw [Bool.eq_iff_iff, isProtected_iff, decide_eq_true_iff]
    rw [← hflag]
    exact execProtectedAt_answers h
  · rw [show Config.default.protMap = pairMap [0x27, 0x29, 0x2F, 0x31] from rfl, mem_pairMap]
    simp [or_assoc]

/-! The TERM that ends a frame (R13, R208). -/

namespace Machine

/-- CLASSIFY of a frame, while a request is outstanding (R211). -/
theorem execClassify_frame {s : State} {f : Bytes} (hs : s.sstate = .awaitingResponse) (hf : f.isEmpty = false) :
    execClassify f s = .next (resolve (verdict s.cfg s.pendKind f) (beginStep s)) := by
  simp [execClassify, hs, hf, classifyFrame]

/-- Ending a request reads no event: it appends its Completion to whatever stands there. -/
theorem resolve_withEvents (r : Resolution) (s : State) (evs : List Event) :
    resolve r { s with events := evs } =
      { resolve r s with events := evs ++ [.completion (completionOf s.pendKind r)] } := by
  cases r <;> rfl

/-- A frame that TERM completes while a request is outstanding ends it by its verdict (R134, R208). -/
theorem feedByte_term_classifies {s : State} (hm : s.rxMode = .assemble) (hs : s.sstate = .awaitingResponse) :
    feedByte s.cfg.term s =
      { resolve (verdict s.cfg s.pendKind (close s.cfg s.rxBuf)) { s with rxBuf := [], lstat := .lsOk } with
        events := s.events ++ [.linkStatus .ok, .frame (close s.cfg s.rxBuf)] ++
          [.completion (completionOf s.pendKind (verdict s.cfg s.pendKind (close s.cfg s.rxBuf)))] } := by
  rw [feedByte_term hm rfl, consumeEvent_frame (by exact hs)]
  exact resolve_withEvents _ { s with rxBuf := [], lstat := .lsOk } _

end Machine

/-- Settles O11: after the codec's two events FEED TERM resolves the request by the frame's verdict, which is CLASSIFY. -/
theorem feedTermClassifiesTheFrame : Obligations.FeedTermClassifiesTheFrame := by
  intro s hm hs
  refine ⟨_, execClassify_frame (f := close s.cfg s.rxBuf) hs (by simp [close]), ?_⟩
  rw [resolve_events]
  exact congrArg Host.Outcome.next (feedByte_term_classifies (s := beginStep s) hm hs)

/-! The invariant, part by part: each part survives an update that writes none of what it reads. -/

theorem CodecInv.congr {s t : State} (h : CodecInv s) (hcfg : t.cfg = s.cfg) (hmode : t.rxMode = s.rxMode)
    (hbuf : t.rxBuf = s.rxBuf) : CodecInv t where
  config := hcfg ▸ h.config
  dropEmpty := by rw [hmode, hbuf]; exact h.dropEmpty
  bounded := by rw [State.rxLen, hcfg, hbuf]; exact h.bounded
  noTerm := by rw [hcfg, hbuf]; exact h.noTerm

/-- With nothing stored the codec's invariants are those of the configuration (R143). -/
theorem CodecInv.of_empty {s : State} (hc : s.cfg.WF) (hbuf : s.rxBuf = []) : CodecInv s where
  config := hc
  dropEmpty := fun _ => hbuf
  bounded := by simp [State.rxLen, hbuf]
  noTerm := by simp [DataBytes, hbuf]

theorem SessionInv.of_idle {s : State} (h : s.sstate = .idle) : SessionInv s where
  boundary := .inl h
  protSel := by simp [h]

/-! What the session may save (R213, R216, R217). -/

namespace Machine

/-- A resolution that CLASSIFY or a link error can give a request of kind `k`: its raw frame is a whole frame with the
marker, its counts are in range, and a format failure is a Count's. -/
def Earned (cfg : Config) (k : Kind) : Resolution → Prop
  | .linkError _ => True
  | .deviceError f => IsFrame cfg f ∧ isDeviceError cfg f = true ∧ f.length ≤ cfg.frameMax
  | .headerMismatch => True
  | .initOk => True
  | .countOk c => c.acc1 ≤ COUNT_MAX ∧ c.acc2 ≤ COUNT_MAX ∧ c.rej1 ≤ COUNT_MAX ∧ c.rej2 ≤ COUNT_MAX
  | .formatFail => k = .kCount

/-- What CLASSIFY decides of a delivered frame is earned (R211). -/
theorem verdict_earned {cfg : Config} (k : Kind) {f : Bytes} (hf : IsFrame cfg f) (hl : f.length ≤ cfg.frameMax) :
    Earned cfg k (verdict cfg k f) := by
  cases hd : isDeviceError cfg f with
  | true => rw [verdict_deviceError hd]; exact ⟨hf, hd, hl⟩
  | false =>
    cases hm : headerMatches cfg k f with
    | false => rw [verdict_headerMismatch hd hm]; trivial
    | true =>
      cases k with
      | kInit => rw [verdict_init hd hm]; trivial
      | kCount =>
        rw [verdict_count hd hm]
        cases hc : decCount cfg f with
        | some c => exact decCount_le hc
        | none => rfl

/-- A codec event as the codec hands it over: a frame is delivered whole and fits in FRAME_MAX (R143 I4). -/
def Delivered (cfg : Config) : CodecEvent → Prop
  | .linkStatus _ => True
  | .frame f => IsFrame cfg f ∧ f.length ≤ cfg.frameMax

/-- The frame that the codec's invariants deliver (R143 I4). -/
theorem delivered_close {s : State} (h : CodecInv s) : Delivered s.cfg (.frame (close s.cfg s.rxBuf)) := by
  refine ⟨by simp [IsFrame, openFrame_close h.noTerm], ?_⟩
  have hmax := h.config.frameMax
  have hlen : s.rxBuf.length ≤ s.cfg.frameMax - 1 := h.bounded
  simp only [close, List.length_append, List.length_singleton]
  omega

/-- One event does nothing, or ends the outstanding request by a resolution that is earned. -/
theorem consumeEvent_earned (s : State) {ev : CodecEvent} (hev : Delivered s.cfg ev) :
    consumeEvent s ev = s ∨ ∃ r, Earned s.cfg s.pendKind r ∧ consumeEvent s ev = resolve r s := by
  by_cases hs : s.sstate = .awaitingResponse
  · match ev, hev with
    | .linkStatus .ok, _ => exact .inl (consumeEvent_ok s)
    | .linkStatus (.err e), _ => exact .inr ⟨.linkError e, trivial, consumeEvent_err hs e⟩
    | .frame f, ⟨hf, hl⟩ => exact .inr ⟨_, verdict_earned _ hf hl, consumeEvent_frame hs f⟩
  · exact .inl (consumeEvent_ignored hs ev)

/-- A number in the counts' range is in it as a register (R20, R36). -/
theorem count_toNat_le {n : Nat} (h : n ≤ COUNT_MAX) : (BitVec.ofNat 7 n).toNat ≤ COUNT_MAX := by
  rw [BitVec.toNat_ofNat]
  exact (Nat.mod_le _ _).trans h

theorem freeCount_toNat_le (n : Nat) : (BitVec.ofNat 7 (Config.freeCount n).val).toNat ≤ COUNT_MAX :=
  count_toNat_le (Nat.le_of_lt_succ (Config.freeCount n).isLt)

theorem errOf_ne_eBusy (r : Resolution) : errOf r ≠ .eBusy := by
  rcases r with (_ | _) | _ | _ | _ | _ | _ <;> simp [errOf]

theorem errOf_ne_eTransport (r : Resolution) : errOf r ≠ .eTransport := by
  rcases r with (_ | _) | _ | _ | _ | _ | _ <;> simp [errOf]

theorem okOf_iff (r : Resolution) : okOf r = true ↔ errOf r = .eNone := by
  rcases r with (_ | _) | _ | _ | _ | _ | _ <;> simp [errOf, okOf]

theorem errOf_eFormat {r : Resolution} (h : errOf r = .eFormat) : r = .formatFail := by
  rcases r with (_ | _) | _ | _ | _ | _ | _ <;> simp_all [errOf]

end Machine

/-- The result registers' invariant reads the configuration, the result registers and RAWFRAME alone. -/
theorem ResultInv.of_agree {s t : State} (h : ResultInv s) (ht : t = { s with
    rxMode := t.rxMode, rxBuf := t.rxBuf, protSel := t.protSel, lstat := t.lstat, sstate := t.sstate,
    pendKind := t.pendKind, txq := t.txq, events := t.events, result := t.result, inputs := t.inputs,
    freeCtr := t.freeCtr }) : ResultInv t := by
  rw [ht]
  exact ⟨h.acc1, h.acc2, h.rej1, h.rej2, h.noBusy, h.noTransport, h.invalid, h.success, h.format, h.raw⟩

/-- An earned resolution saves a whole marked frame, or counts in range (R213, R216). -/
theorem ResultInv.saveResult {s : State} {r : Resolution} (h : ResultInv s) (hr : Earned s.cfg s.pendKind r) :
    ResultInv (saveResult r s) := by
  cases r with
  | linkError _ => exact h
  | headerMismatch => exact h
  | initOk => exact h
  | formatFail => exact h
  | deviceError f =>
    exact ⟨h.acc1, h.acc2, h.rej1, h.rej2, h.noBusy, h.noTransport, h.invalid, h.success, h.format, .inr hr⟩
  | countOk c =>
    obtain ⟨h1, h2, h3, h4⟩ := hr
    exact ⟨count_toNat_le h1, count_toNat_le h2, count_toNat_le h3, count_toNat_le h4, h.noBusy, h.noTransport,
      h.invalid, h.success, h.format, h.raw⟩

/-- COMPLETE writes a code of its own, success exactly as E_NONE, and a format failure of a Count only (R217, R218, R280). -/
theorem ResultInv.completeRequest {s : State} {r : Resolution} (h : ResultInv s)
    (hr : r = .formatFail → s.pendKind = .kCount) : ResultInv (completeRequest r s) where
  acc1 := h.acc1
  acc2 := h.acc2
  rej1 := h.rej1
  rej2 := h.rej2
  noBusy := errOf_ne_eBusy r
  noTransport := errOf_ne_eTransport r
  invalid := nofun
  success := fun _ => okOf_iff r
  format := fun he => hr (errOf_eFormat he)
  raw := h.raw

/-- Ending the request with an earned resolution keeps the invariant (R212 to R217, R220). -/
theorem Inv.resolve {s : State} {r : Resolution} (h : Inv s) (hr : Earned s.cfg s.pendKind r) : Inv (resolve r s) where
  codec := h.codec.congr (resolve_cfg r s) (resolve_rxMode r s) (resolve_rxBuf r s)
  session := .of_idle (resolve_sstate r s)
  results := by
    have hsaved : ResultInv (Machine.saveResult r { s with sstate := sstateOf (viaOf r) }) :=
      (h.results.of_agree rfl).saveResult hr
    refine hsaved.completeRequest fun he => ?_
    subst he
    exact hr

theorem Inv.consumeEvent {s : State} {ev : CodecEvent} (h : Inv s) (hev : Delivered s.cfg ev) :
    Inv (consumeEvent s ev) := by
  obtain he | ⟨r, hr, he⟩ := consumeEvent_earned s hev <;> rw [he]
  · exact h
  · exact h.resolve hr

/-- Replacing the codec's registers by ones that meet its invariants keeps the whole invariant. -/
theorem Inv.of_codec {s t : State} (h : Inv s) (hc : CodecInv t) (ht : t = { s with
    rxMode := t.rxMode, rxBuf := t.rxBuf, lstat := t.lstat, txq := t.txq, events := t.events, result := t.result,
    inputs := t.inputs, freeCtr := t.freeCtr }) : Inv t where
  codec := hc
  session := by rw [ht]; exact ⟨h.session.boundary, h.session.protSel⟩
  results := by rw [ht]; exact h.results.of_agree rfl

/-- The invariant reads neither LSTAT, TXQ nor a field of the model's own other than the configuration. -/
theorem Inv.of_agree {s t : State} (h : Inv s) (ht : t = { s with
    lstat := t.lstat, txq := t.txq, events := t.events, result := t.result, inputs := t.inputs,
    freeCtr := t.freeCtr }) : Inv t := by
  rw [ht]
  exact h.of_codec (h.codec.congr rfl rfl rfl) rfl

/-- A stored byte is no TERM and leaves room for it (R143 I2, I3). -/
theorem CodecInv.store {s : State} {b : Byte} (h : CodecInv s) (hm : s.rxMode = .assemble) (hb : b ≠ s.cfg.term)
    (hl : s.rxLen ≠ s.cfg.frameMax - 1) : CodecInv { s with rxBuf := s.rxBuf ++ [b] } where
  config := h.config
  dropEmpty := by simp [hm]
  bounded := by
    have hlen := Nat.lt_of_le_of_ne h.bounded hl
    simpa [State.rxLen] using hlen
  noTerm := by
    have hbuf := h.noTerm
    simp only [DataBytes, List.mem_append, List.mem_singleton, not_or] at hbuf ⊢
    exact ⟨hbuf, hb.symm⟩

/-- FEED keeps the invariant, in each of its cases (R131). -/
theorem Inv.feedByte {s : State} (h : Inv s) (b : Byte) : Inv (feedByte b s) := by
  have hwf := h.codec.config
  obtain ⟨hm, he⟩ | ⟨-, -, he⟩ | ⟨-, -, e, he⟩ | ⟨hm, hb, hl, -, he⟩ := feedByte_cases b s <;> rw [he]
  · exact h.of_codec (.of_empty hwf (h.codec.dropEmpty hm)) rfl
  · exact Inv.consumeEvent (h.of_codec (.of_empty hwf rfl) rfl) (delivered_close h.codec)
  · exact Inv.consumeEvent (h.of_codec (.of_empty hwf rfl) rfl) trivial
  · exact h.of_codec (h.codec.store hm hb hl) rfl

/-- An ISSUE keeps the invariant: BUSY changes nothing, an accepted one arms PROTSEL with the kind (R201 to R204). -/
theorem Inv.issue {s : State} (h : Inv s) (k : Kind) (cmd : Bytes) : Inv (issue k cmd s) := by
  by_cases hs : s.sstate = .idle
  · rw [issue_idle hs]
    exact ⟨h.codec.congr rfl rfl rfl, ⟨.inr rfl, fun _ => rfl⟩, h.results.of_agree rfl⟩
  · rw [issue_busy hs]
    exact h.of_agree rfl

/-- RESET establishes the invariant under a well-formed configuration (R320). -/
theorem Inv.resetBlock {s : State} (hc : s.cfg.WF) : Inv (resetBlock s) where
  codec := .of_empty hc rfl
  session := .of_idle rfl
  results :=
    { acc1 := freeCount_toNat_le _
      acc2 := freeCount_toNat_le _
      rej1 := freeCount_toNat_le _
      rej2 := freeCount_toNat_le _
      noBusy := nofun
      noTransport := nofun
      invalid := fun _ => ⟨rfl, rfl⟩
      success := nofun
      format := nofun
      raw := .inl rfl }

/-- Every operation that has an encoding keeps the invariant; the internal micro-operations, which no port selects, need
not (COMPLETE takes a resolution no rule gives). -/
theorem Inv.exec {i : Instr} {s t : State} (h : Inv s) (hi : (encode s.cfg i).isSome = true)
    (he : exec i s = .next t) : Inv t := by
  have hbegin : Inv (beginStep s) := h.of_agree rfl
  cases exec_effect he with
  | pure r => exact h.of_agree rfl
  | feeds bs => exact feedBytes_keeps (fun b _ hs => hs.feedByte b) bs hbegin
  | issues k cmd => exact hbegin.issue k cmd
  | clears => exact hbegin.of_codec (.of_empty h.codec.config rfl) rfl
  | pops b rest => exact h.of_agree rfl
  | resets => exact .resetBlock h.codec.config
  | rejects => exact h.of_agree rfl
  | consumes evs hi' => rw [encode_of_consumed s.cfg hi'] at hi; cases hi
  | completes r hi' => subst hi'; cases hi
  | folds hi' => subst hi'; cases hi
  | failsFormat hi' => subst hi'; cases hi

/-- Settles O51, by the cases of a step: nothing selected, or an encoded operation run (`step_next`, `Inv.exec`). -/
theorem everyStepKeepsTheInvariant : Obligations.EveryStepKeepsTheInvariant := by
  intro s t h hstep
  obtain ⟨rest, rfl⟩ | ⟨i, w, rest, -, hdec, hexec⟩ := step_next hstep
  · exact h.of_agree rfl
  · have hin : Inv { s with inputs := rest } := h.of_agree rfl
    have hport := decode_encodable hdec
    exact hin.exec hport hexec

end Sys2Proof

/-! PROOFS. The state's statements (spec/10_state.md): reset (R320), the shapes of FEED's event list (R45), one Completion per
request (R266), who writes what, and what no step reads (R321). -/

namespace Sys2Proof

open Sys2Proof.Machine

/-! Reset. -/

/-- Settles O1: each value is the field's own in `State.reset`. -/
theorem resetStateHasTheSpecValues : Obligations.ResetStateHasTheSpecValues :=
  ⟨rfl, rfl, rfl, rfl, rfl, rfl, rfl, rfl, rfl, rfl⟩

/-- Settles O50: nothing is stored, the session is Idle, and no result is valid. -/
theorem invariantHoldsAtReset : Obligations.InvariantHoldsAtReset where
  codec := .of_empty Config.default_wf rfl
  session := .of_idle rfl
  results :=
    { acc1 := Nat.zero_le _
      acc2 := Nat.zero_le _
      rej1 := Nat.zero_le _
      rej2 := Nat.zero_le _
      noBusy := nofun
      noTransport := nofun
      invalid := fun _ => ⟨rfl, rfl⟩
      success := nofun
      format := nofun
      raw := .inl rfl }

/-! The session's part of a step: SSTATE, PEND_KIND, the result registers and the Completions (R218, R266). -/

namespace Machine

/-- The result registers and RAWFRAME (R35, R36, R38). -/
structure ResultView where
  resValid : Bool
  resOk : Bool
  resErr : ErrCode
  resKind : Kind
  acc1 : Val7
  acc2 : Val7
  rej1 : Val7
  rej2 : Val7
  rawFrame : Bytes

def resultView (s : State) : ResultView where
  resValid := s.resValid
  resOk := s.resOk
  resErr := s.resErr
  resKind := s.resKind
  acc1 := s.acc1
  acc2 := s.acc2
  rej1 := s.rej1
  rej2 := s.rej2
  rawFrame := s.rawFrame

/-- What the session writes (R28): its state, the outstanding command, the result registers and the Completions emitted. -/
structure SessionView where
  sstate : SState
  pendKind : Kind
  results : ResultView
  completions : List Completion

def sessionView (s : State) : SessionView where
  sstate := s.sstate
  pendKind := s.pendKind
  results := resultView s
  completions := completions s.events

theorem sessionView_eq_iff {s t : State} : sessionView t = sessionView s ↔
    t.sstate = s.sstate ∧ t.pendKind = s.pendKind ∧ resultView t = resultView s ∧
      completions t.events = completions s.events := by
  simp [sessionView]

@[simp] theorem completions_nil : completions [] = [] := rfl

@[simp] theorem completions_append (as bs : List Event) : completions (as ++ bs) = completions as ++ completions bs :=
  List.filterMap_append

@[simp] theorem completions_completion (c : Completion) (evs : List Event) :
    completions (.completion c :: evs) = c :: completions evs := rfl

@[simp] theorem completions_linkStatus (c : LinkStatus) (evs : List Event) :
    completions (.linkStatus c :: evs) = completions evs := rfl

@[simp] theorem completions_frame (f : Bytes) (evs : List Event) :
    completions (.frame f :: evs) = completions evs := rfl

@[simp] theorem completions_issueOutcome (o : IssueOutcome) (evs : List Event) :
    completions (.issueOutcome o :: evs) = completions evs := rfl

@[simp] theorem completions_txByte (b : Byte) (evs : List Event) :
    completions (.txByte b :: evs) = completions evs := rfl

/-- Ending a request reads and writes the session's part alone. -/
theorem sessionView_resolve_congr {s t : State} (r : Resolution) (h : sessionView t = sessionView s) :
    sessionView (resolve r t) = sessionView (resolve r s) := by
  obtain ⟨-, hk, hres, hcs⟩ := sessionView_eq_iff.mp h
  simp only [resultView, ResultView.mk.injEq] at hres
  cases r <;> simp [sessionView, resultView, hk, hcs, hres]

/-- How the session's part of `t` follows from that of `s`: it is the same, or it is what ending the outstanding request
of `s` once leaves. -/
def EndsAtMostOnce (s t : State) : Prop :=
  sessionView t = sessionView s ∨ (s.sstate = .awaitingResponse ∧ ∃ r, sessionView t = sessionView (resolve r s))

theorem EndsAtMostOnce.congr_left {s s' t : State} (hs : sessionView s' = sessionView s) (h : EndsAtMostOnce s' t) :
    EndsAtMostOnce s t := by
  obtain ⟨hst, -⟩ := sessionView_eq_iff.mp hs
  obtain h | ⟨hw, r, h⟩ := h
  · exact .inl (h.trans hs)
  · exact .inr ⟨hst ▸ hw, r, h.trans (sessionView_resolve_congr r hs)⟩

/-- Once the request has ended the session is Idle and cannot end another. -/
theorem EndsAtMostOnce.trans {s t u : State} (h : EndsAtMostOnce s t) (h' : EndsAtMostOnce t u) : EndsAtMostOnce s u := by
  obtain h | ⟨hw, r, h⟩ := h
  · exact h'.congr_left h
  · obtain h' | ⟨hw', -⟩ := h'
    · exact .inr ⟨hw, r, h'.trans h⟩
    · obtain ⟨hst, -⟩ := sessionView_eq_iff.mp h
      simp [hst] at hw'

theorem consumeEvent_endsAtMostOnce (s : State) (ev : CodecEvent) : EndsAtMostOnce s (consumeEvent s ev) := by
  obtain h | ⟨hw, r, -, h⟩ := consumeEvent_cases s ev
  · exact .inl (congrArg sessionView h)
  · exact .inr ⟨hw, r, congrArg sessionView h⟩

/-- The codec writes nothing of the session's part, and hands over at most one event that could end the request (R208). -/
theorem feedByte_endsAtMostOnce (b : Byte) (s : State) : EndsAtMostOnce s (feedByte b s) := by
  obtain ⟨-, h⟩ | ⟨-, -, h⟩ | ⟨-, -, e, h⟩ | ⟨-, -, -, -, h⟩ := feedByte_cases b s <;> rw [h]
  · exact .inl rfl
  · exact (consumeEvent_endsAtMostOnce _ _).congr_left (by simp [sessionView, resultView])
  · exact (consumeEvent_endsAtMostOnce _ _).congr_left (by simp [sessionView, resultView])
  · exact .inl rfl

theorem feedBytes_endsAtMostOnce (bs : Bytes) (s : State) : EndsAtMostOnce s (feedBytes bs s) :=
  feedBytes_keeps (P := EndsAtMostOnce s) (fun b _ h => h.trans (feedByte_endsAtMostOnce b _)) bs (.inl rfl)

/-- An ISSUE completes nothing, writes no result register, and leaves no outstanding request ended (R201 to R204). -/
theorem issue_session (k : Kind) (cmd : Bytes) (s : State) :
    resultView (issue k cmd s) = resultView s ∧ completions (issue k cmd s).events = completions s.events ∧
      (s.sstate = .awaitingResponse → (issue k cmd s).sstate = .awaitingResponse) := by
  by_cases hs : s.sstate = .idle
  · rw [issue_idle hs]
    exact ⟨rfl, by simp, fun _ => rfl⟩
  · rw [issue_busy hs]
    exact ⟨rfl, by simp, id⟩

/-- An operation with an encoding, other than RESET, either completes nothing and leaves an outstanding request outstanding,
or ends the outstanding request once. -/
theorem exec_completes_or_ends {i : Instr} {s t : State} (hi : (encode s.cfg i).isSome = true) (hr : i ≠ .reset)
    (he : exec i s = .next t) :
    (completions t.events = [] ∧ (s.sstate = .awaitingResponse → t.sstate = .awaitingResponse)) ∨
    (s.sstate = .awaitingResponse ∧ ∃ r, sessionView t = sessionView (resolve r (beginStep s))) := by
  cases exec_effect he with
  | pure r => exact .inl ⟨rfl, id⟩
  | feeds bs =>
    refine (feedBytes_endsAtMostOnce bs (beginStep s)).imp_left fun h => ?_
    obtain ⟨hst, -, -, hcs⟩ := sessionView_eq_iff.mp h
    exact ⟨hcs, fun hw => hst.trans hw⟩
  | issues k cmd =>
    obtain ⟨-, hcs, hst⟩ := issue_session k cmd (beginStep s)
    exact .inl ⟨hcs, hst⟩
  | clears => exact .inl ⟨rfl, id⟩
  | pops b rest => exact .inl ⟨rfl, id⟩
  | resets h => exact absurd h hr
  | rejects => exact .inl ⟨rfl, id⟩
  | consumes evs hi' => rw [encode_of_consumed s.cfg hi'] at hi; cases hi
  | completes r hi' => subst hi'; cases hi
  | folds hi' => subst hi'; cases hi
  | failsFormat hi' => subst hi'; cases hi

@[simp] theorem ctxOf_cfg (s : State) : (ctxOf s).cfg = s.cfg := rfl

/-- An operation that a port selects has an encoding under the block's configuration. -/
theorem encode_isSome_of_decode {s : State} {w : PortWord} {i : Instr} (h : decode (ctxOf s) w = .ok i) :
    (encode s.cfg i).isSome = true := by
  rw [← ctxOf_cfg]
  exact decode_encodable h

/-- Inversion of fetch: the selected operation has an encoding, and its word has been taken. -/
theorem fetch_operation {s u : State} {i : Instr} (h : fetch s = .operation i u) :
    (encode s.cfg i).isSome = true ∧ ∃ rest, u = { s with inputs := rest } := by
  cases hin : s.inputs with
  | nil => rw [fetch_nil hin] at h; cases h
  | cons w rest =>
    rw [fetch_cons hin] at h
    cases hd : decode (ctxOf s) w with
    | ok j => rw [hd, select_ok] at h; cases h; exact ⟨encode_isSome_of_decode hd, rest, rfl⟩
    | error e =>
      rw [hd] at h
      by_cases hidle : e = .portIdle
      · subst hidle; cases h
      · rw [select_error hidle] at h; cases h

end Machine

/-- Settles O53: a selected operation has an encoding, so it completes nothing or ends the request once, in AwaitingResponse. -/
theorem exactlyOneCompletionPerRequest : Obligations.ExactlyOneCompletionPerRequest := by
  intro s u t i hf he hr
  obtain ⟨hport, rest, rfl⟩ := fetch_operation hf
  obtain ⟨hcs, hst⟩ | ⟨hw, r, hv⟩ := exec_completes_or_ends (s := { s with inputs := rest }) hport hr he
  · have hkept : ¬ (s.sstate = .awaitingResponse ∧ t.sstate ≠ .awaitingResponse) := fun ⟨hw, hne⟩ => hne (hst hw)
    rw [hcs, if_neg hkept]
    exact ⟨rfl, nofun⟩
  · have hw : s.sstate = .awaitingResponse := hw
    obtain ⟨hst, -, hres, hcs⟩ := sessionView_eq_iff.mp hv
    simp only [resultView, ResultView.mk.injEq] at hres
    obtain ⟨hvalid, hok, herr, hkind, -⟩ := hres
    have hidle : t.sstate = .idle := hst.trans (resolve_sstate r _)
    have hone : completions t.events = [completionOf s.pendKind r] := by simpa using hcs
    rw [hone, if_pos ⟨hw, by simp [hidle]⟩]
    refine ⟨rfl, fun c hc => ?_⟩
    rw [List.mem_singleton.mp hc]
    exact ⟨rfl, hidle, hvalid.trans (resolve_resValid r _), hok.trans (resolve_resOk r _),
      herr.trans (resolve_resErr r _), hkind.trans (resolve_resKind r _)⟩

/-! Who writes what, over every operation (R28). -/

namespace Machine

theorem feedsCodec_of_fed {cfg : Config} {i : Instr} {bs : Bytes} (h : fed cfg i = some bs) : feedsCodec i = true := by
  rw [← fed_isSome cfg i, h]
  rfl

theorem isIssue_of_issued {cfg : Config} {i : Instr} {c : Kind × Bytes} (h : issued cfg i = some c) : isIssue i = true := by
  rw [← issued_isSome cfg i, h]
  rfl

/-- An ISSUE writes neither the configuration, the offers, nor the codec's registers (R201 to R204). -/
theorem issue_frame (k : Kind) (cmd : Bytes) (s : State) :
    (issue k cmd s).cfg = s.cfg ∧ (issue k cmd s).inputs = s.inputs ∧ (issue k cmd s).lstat = s.lstat ∧
    (issue k cmd s).rxMode = s.rxMode ∧ (issue k cmd s).rxBuf = s.rxBuf := by
  by_cases hs : s.sstate = .idle
  · simp [issue_idle hs]
  · simp [issue_busy hs]

/-- The session writes neither the configuration, the offers, PROTSEL, PEND_KIND, nor the codec's registers (R28). -/
theorem consumeEvents_frame (evs : List CodecEvent) (s : State) :
    (consumeEvents evs s).cfg = s.cfg ∧ (consumeEvents evs s).inputs = s.inputs ∧
    (consumeEvents evs s).protSel = s.protSel ∧ (consumeEvents evs s).pendKind = s.pendKind ∧
    (consumeEvents evs s).lstat = s.lstat ∧ (consumeEvents evs s).rxMode = s.rxMode ∧
    (consumeEvents evs s).rxBuf = s.rxBuf := by
  obtain h | ⟨-, r, -, h⟩ := consumeEvents_cases evs s <;> simp [h]

/-- No operation writes the configuration or the offers (R21). -/
theorem exec_cfg_inputs {i : Instr} {s t : State} (he : exec i s = .next t) : t.cfg = s.cfg ∧ t.inputs = s.inputs := by
  cases exec_effect he with
  | pure r => exact ⟨rfl, rfl⟩
  | feeds bs =>
    obtain ⟨hcfg, -, -, -, -, hin, -⟩ := feedBytes_frame bs (beginStep s)
    exact ⟨hcfg, hin⟩
  | issues k cmd =>
    obtain ⟨hcfg, hin, -⟩ := issue_frame k cmd (beginStep s)
    exact ⟨hcfg, hin⟩
  | clears => exact ⟨rfl, rfl⟩
  | pops b rest => exact ⟨rfl, rfl⟩
  | resets => exact ⟨rfl, rfl⟩
  | consumes evs =>
    obtain ⟨hcfg, hin, -⟩ := consumeEvents_frame evs (beginStep s)
    exact ⟨hcfg, hin⟩
  | completes r => exact ⟨rfl, rfl⟩
  | folds => exact ⟨rfl, rfl⟩
  | failsFormat => exact ⟨rfl, rfl⟩
  | rejects => exact ⟨rfl, rfl⟩

/-- PROTSEL and PEND_KIND have no writers but ISSUE and RESET (R26, R31). -/
theorem exec_protSel_pendKind {i : Instr} {s t : State} (hi : isIssue i = false) (hr : i ≠ .reset)
    (he : exec i s = .next t) : t.protSel = s.protSel ∧ t.pendKind = s.pendKind := by
  cases exec_effect he with
  | pure r => exact ⟨rfl, rfl⟩
  | feeds bs =>
    obtain ⟨-, hsel, hkind, -⟩ := feedBytes_frame bs (beginStep s)
    exact ⟨hsel, hkind⟩
  | issues k cmd h => simp [isIssue_of_issued h] at hi
  | clears => exact ⟨rfl, rfl⟩
  | pops b rest => exact ⟨rfl, rfl⟩
  | resets h => exact absurd h hr
  | consumes evs =>
    obtain ⟨-, -, hsel, hkind, -⟩ := consumeEvents_frame evs (beginStep s)
    exact ⟨hsel, hkind⟩
  | completes r => exact ⟨rfl, rfl⟩
  | folds => exact ⟨rfl, rfl⟩
  | failsFormat => exact ⟨rfl, rfl⟩
  | rejects => exact ⟨rfl, rfl⟩

/-- The codec's registers have no writers but what feeds bytes, RESET, and for RXMODE and RXBUF CODEC_RESET (R23, R27). -/
theorem exec_codec {i : Instr} {s t : State} (hi : feedsCodec i = false) (hr : i ≠ .reset) (he : exec i s = .next t) :
    t.lstat = s.lstat ∧ (i ≠ .codecReset → t.rxMode = s.rxMode ∧ t.rxBuf = s.rxBuf) := by
  cases exec_effect he with
  | pure r => exact ⟨rfl, fun _ => ⟨rfl, rfl⟩⟩
  | feeds bs h => simp [feedsCodec_of_fed h] at hi
  | issues k cmd =>
    obtain ⟨-, -, hl, hm, hb⟩ := issue_frame k cmd (beginStep s)
    exact ⟨hl, fun _ => ⟨hm, hb⟩⟩
  | clears h => exact ⟨rfl, fun hc => absurd h hc⟩
  | pops b rest => exact ⟨rfl, fun _ => ⟨rfl, rfl⟩⟩
  | resets h => exact absurd h hr
  | consumes evs =>
    obtain ⟨-, -, -, -, hl, hm, hb⟩ := consumeEvents_frame evs (beginStep s)
    exact ⟨hl, fun _ => ⟨hm, hb⟩⟩
  | completes r => exact ⟨rfl, fun _ => ⟨rfl, rfl⟩⟩
  | folds => exact ⟨rfl, fun _ => ⟨rfl, rfl⟩⟩
  | failsFormat => exact ⟨rfl, fun _ => ⟨rfl, rfl⟩⟩
  | rejects => exact ⟨rfl, fun _ => ⟨rfl, rfl⟩⟩

/-- What the Completions of a step from `s` to `t` license: the flags change only with one, the counts only with one that
carries counts, RAWFRAME only with one that carries a raw frame (R35, R36, R38). -/
structure ResultsFollow (s t : State) : Prop where
  flags : completions t.events = [] →
    t.resValid = s.resValid ∧ t.resOk = s.resOk ∧ t.resErr = s.resErr ∧ t.resKind = s.resKind
  counts : (∀ c ∈ completions t.events, c.result = none) →
    t.acc1 = s.acc1 ∧ t.acc2 = s.acc2 ∧ t.rej1 = s.rej1 ∧ t.rej2 = s.rej2
  raw : (∀ c ∈ completions t.events, c.raw = none) → t.rawFrame = s.rawFrame

theorem ResultsFollow.of_resultView_eq {s t : State} (h : resultView t = resultView s) : ResultsFollow s t := by
  simp only [resultView, ResultView.mk.injEq] at h
  obtain ⟨hvalid, hok, herr, hkind, ha1, ha2, hr1, hr2, hraw⟩ := h
  exact ⟨fun _ => ⟨hvalid, hok, herr, hkind⟩, fun _ => ⟨ha1, ha2, hr1, hr2⟩, fun _ => hraw⟩

/-- Only a successful Count saves counts (R216). -/
theorem saveResult_counts {r : Resolution} (h : resultOf r = none) (s : State) :
    (saveResult r s).acc1 = s.acc1 ∧ (saveResult r s).acc2 = s.acc2 ∧
    (saveResult r s).rej1 = s.rej1 ∧ (saveResult r s).rej2 = s.rej2 := by
  cases r with
  | countOk c => cases h
  | linkError _ => exact ⟨rfl, rfl, rfl, rfl⟩
  | deviceError _ => exact ⟨rfl, rfl, rfl, rfl⟩
  | headerMismatch => exact ⟨rfl, rfl, rfl, rfl⟩
  | initOk => exact ⟨rfl, rfl, rfl, rfl⟩
  | formatFail => exact ⟨rfl, rfl, rfl, rfl⟩

/-- Only a DeviceError saves a raw frame (R213). -/
theorem saveResult_rawFrame {r : Resolution} (h : rawOf r = none) (s : State) :
    (saveResult r s).rawFrame = s.rawFrame := by
  cases r with
  | deviceError f => cases h
  | linkError _ => rfl
  | headerMismatch => rfl
  | initOk => rfl
  | countOk c => rfl
  | formatFail => rfl

/-- Ending the request writes what its Completion carries. -/
theorem ResultsFollow.resolve (r : Resolution) (s : State) : ResultsFollow s (resolve r s) where
  flags h := by simp at h
  counts h := by
    have hr : resultOf r = none := h (completionOf s.pendKind r) (by simp)
    simpa using saveResult_counts hr s
  raw h := by
    have hr : rawOf r = none := h (completionOf s.pendKind r) (by simp)
    simpa using saveResult_rawFrame hr s

/-- COMPLETE on its own writes the flags alone (R218). -/
theorem ResultsFollow.completeRequest (r : Resolution) (s : State) : ResultsFollow s (completeRequest r s) where
  flags h := by simp at h
  counts _ := ⟨rfl, rfl, rfl, rfl⟩
  raw _ := rfl

theorem ResultsFollow.of_sessionView_eq {s t u : State} (h : ResultsFollow s t) (hv : sessionView u = sessionView t) :
    ResultsFollow s u := by
  obtain ⟨-, -, hres, hcs⟩ := sessionView_eq_iff.mp hv
  simp only [resultView, ResultView.mk.injEq] at hres
  obtain ⟨hvalid, hok, herr, hkind, ha1, ha2, hr1, hr2, hraw⟩ := hres
  constructor
  · rw [hcs, hvalid, hok, herr, hkind]
    exact h.flags
  · rw [hcs, ha1, ha2, hr1, hr2]
    exact h.counts
  · rw [hcs, hraw]
    exact h.raw

/-- The result registers have no writers but RESET and what completes a request (R35, R36, R38). -/
theorem exec_results {i : Instr} {s t : State} (hr : i ≠ .reset) (he : exec i s = .next t) :
    ResultsFollow (beginStep s) t := by
  cases exec_effect he with
  | pure r => exact .of_resultView_eq rfl
  | feeds bs =>
    obtain h | ⟨-, r, h⟩ := feedBytes_endsAtMostOnce bs (beginStep s)
    · obtain ⟨-, -, hres, -⟩ := sessionView_eq_iff.mp h
      exact .of_resultView_eq hres
    · exact (ResultsFollow.resolve r _).of_sessionView_eq h
  | issues k cmd =>
    obtain ⟨h, -⟩ := issue_session k cmd (beginStep s)
    exact .of_resultView_eq h
  | clears => exact .of_resultView_eq rfl
  | pops b rest => exact .of_resultView_eq rfl
  | resets h => exact absurd h hr
  | consumes evs =>
    obtain h | ⟨-, r, -, h⟩ := consumeEvents_cases evs (beginStep s) <;> rw [h]
    · exact .of_resultView_eq rfl
    · exact .resolve r _
  | completes r => exact .completeRequest r _
  | folds => exact .of_resultView_eq rfl
  | failsFormat => exact .resolve _ _
  | rejects => exact .of_resultView_eq rfl

end Machine

/-- Settles O54, by the effects an operation can have (`exec_effect`), one lemma per group of registers. -/
theorem registersHaveOnlyTheirWriters : Obligations.RegistersHaveOnlyTheirWriters := by
  intro i s t he
  obtain ⟨hcfg, hin⟩ := exec_cfg_inputs he
  exact ⟨hcfg, hin, fun hi hr => exec_protSel_pendKind hi hr he, fun hi hr => (exec_codec hi hr he).1,
    fun hi hc hr => (exec_codec hi hr he).2 hc, fun hr => (exec_results hr he).flags,
    fun hr => (exec_results hr he).counts, fun hr => (exec_results hr he).raw⟩

/-! The events of FEED (R45). -/

namespace Machine

/-- An event the session consumes emits nothing, or one Completion (R208, R218). -/
theorem consumeEvent_events (s : State) (ev : CodecEvent) :
    (consumeEvent s ev).events = s.events ∨ ∃ c, (consumeEvent s ev).events = s.events ++ [.completion c] := by
  obtain h | ⟨-, r, -, h⟩ := consumeEvent_cases s ev
  · exact .inl (by rw [h])
  · exact .inr ⟨completionOf s.pendKind r, by rw [h, resolve_events]⟩

/-- The five shapes of the event list of a FEED step (R45); `f` is the frame that TERM would complete. -/
inductive FeedShape (f : Bytes) : List Event → Prop where
  | silent : FeedShape f []
  | linkError (e : LinkErr) : FeedShape f [.linkStatus (.err e)]
  | failed (e : LinkErr) (c : Completion) : FeedShape f [.linkStatus (.err e), .completion c]
  | delivered : FeedShape f [.linkStatus .ok, .frame f]
  | completed (c : Completion) : FeedShape f [.linkStatus .ok, .frame f, .completion c]

/-- FEED with no event before it emits one of the five shapes, by the codec's cases (R131). -/
theorem feedByte_shape (b : Byte) {s : State} (hs : s.events = []) :
    FeedShape (close s.cfg s.rxBuf) (feedByte b s).events := by
  obtain ⟨-, h⟩ | ⟨-, -, h⟩ | ⟨-, -, e, h⟩ | ⟨-, -, -, -, h⟩ := feedByte_cases b s <;> rw [h]
  · simpa [hs] using FeedShape.silent
  · obtain h | ⟨c, h⟩ := consumeEvent_events
      { s with rxBuf := [], lstat := .lsOk, events := s.events ++ [.linkStatus .ok, .frame (close s.cfg s.rxBuf)] }
      (.frame (close s.cfg s.rxBuf)) <;> rw [h, hs]
    · exact .delivered
    · exact .completed c
  · obtain h | ⟨c, h⟩ := consumeEvent_events
      { s with rxBuf := [], rxMode := .drop, lstat := lstatOf (.err e), events := s.events ++ [.linkStatus (.err e)] }
      (.linkStatus (.err e)) <;> rw [h, hs]
    · exact .linkError e
    · exact .failed e c
  · simpa [hs] using FeedShape.silent

/-- The only frame in an event list of these shapes is the one that TERM completes. -/
theorem FeedShape.eq_of_frame_mem {f g : Bytes} {evs : List Event} (h : FeedShape f evs) (hg : .frame g ∈ evs) : g = f := by
  cases h with
  | silent => cases hg
  | linkError e => simp at hg
  | failed e c => simp at hg
  | delivered => simpa using hg
  | completed c => simpa using hg

end Machine

/-- Settles O8: the shapes are `feedByte_shape`'s, and the one frame they hold is delivered whole (`delivered_close`). -/
theorem feedEmitsOneOfFiveShapes : Obligations.FeedEmitsOneOfFiveShapes := by
  intro s b
  have hshape : FeedShape (close s.cfg s.rxBuf) (feedByte b (beginStep s)).events :=
    feedByte_shape (s := beginStep s) b rfl
  refine ⟨_, rfl, ?_, fun hc f hf => ?_⟩
  · generalize (feedByte b (beginStep s)).events = evs at hshape
    cases hshape with
    | silent => exact .inl rfl
    | linkError e => exact .inr (.inl ⟨e, rfl⟩)
    | failed e c => exact .inr (.inr (.inl ⟨e, c, rfl⟩))
    | delivered => exact .inr (.inr (.inr (.inl rfl)))
    | completed c => exact .inr (.inr (.inr (.inr ⟨c, rfl⟩)))
  · obtain rfl := hshape.eq_of_frame_mem hf
    obtain ⟨hframe, hlen⟩ := delivered_close hc
    exact ⟨hframe, by simp [close], hlen⟩

/-! What no step reads (R27, R31, R321): the relation SameButUnread is kept by each shared update of the state, and every
operation with an encoding is made of these. -/

namespace SameButUnread

variable {s s' : State}

theorem rxMode (h : SameButUnread s s') : s'.rxMode = s.rxMode := by rw [h.eq]
theorem rxBuf (h : SameButUnread s s') : s'.rxBuf = s.rxBuf := by rw [h.eq]
theorem protSel (h : SameButUnread s s') : s'.protSel = s.protSel := by rw [h.eq]
theorem sstate (h : SameButUnread s s') : s'.sstate = s.sstate := by rw [h.eq]
theorem txq (h : SameButUnread s s') : s'.txq = s.txq := by rw [h.eq]
theorem cfg (h : SameButUnread s s') : s'.cfg = s.cfg := by rw [h.eq]
theorem events (h : SameButUnread s s') : s'.events = s.events := by rw [h.eq]
theorem inputs (h : SameButUnread s s') : s'.inputs = s.inputs := by rw [h.eq]

/-- The block decodes in the same context (R111). -/
theorem ctxOf_eq (h : SameButUnread s s') : ctxOf s' = ctxOf s := by
  by_cases hw : s.sstate = .awaitingResponse
  · simp [ctxOf, txPending, h.cfg, h.sstate, h.txq, h.pend hw]
  · simp [ctxOf, txPending, h.cfg, h.sstate, h.txq, hw]

/-! The updates that branch on nothing. -/

theorem beginStep (h : SameButUnread s s') : SameButUnread (beginStep s) (beginStep s') :=
  ⟨by rw [h.eq]; rfl, h.pend⟩

theorem withInputs (h : SameButUnread s s') (ws : List PortWord) :
    SameButUnread { s with inputs := ws } { s' with inputs := ws } :=
  ⟨by rw [h.eq], h.pend⟩

theorem withTxq (h : SameButUnread s s') (q : Bytes) : SameButUnread { s with txq := q } { s' with txq := q } :=
  ⟨by rw [h.eq], h.pend⟩

theorem returnValue (h : SameButUnread s s') (r : MicroResult) : SameButUnread (returnValue r s) (returnValue r s') :=
  ⟨by rw [h.eq]; rfl, h.pend⟩

theorem emit (h : SameButUnread s s') (e : Event) : SameButUnread (emit e s) (emit e s') :=
  ⟨by rw [h.eq]; rfl, h.pend⟩

theorem emitAll (h : SameButUnread s s') (evs : List CodecEvent) : SameButUnread (emitAll evs s) (emitAll evs s') :=
  ⟨by rw [h.eq]; rfl, h.pend⟩

theorem codecClear (h : SameButUnread s s') : SameButUnread (codecClear s) (codecClear s') :=
  ⟨by rw [h.eq]; rfl, h.pend⟩

theorem arm (h : SameButUnread s s') (k : Kind) (cmd : Bytes) : SameButUnread (arm k cmd s) (arm k cmd s') :=
  ⟨by rw [h.eq]; rfl, fun _ => rfl⟩

/-- RESET draws the free values from the counter, which both states share (R320). -/
theorem resetBlock (h : SameButUnread s s') : SameButUnread (resetBlock s) (resetBlock s') :=
  ⟨by rw [h.eq]; rfl, nofun⟩

/-! The session and the codec. -/

theorem issue (h : SameButUnread s s') (k : Kind) (cmd : Bytes) : SameButUnread (issue k cmd s) (issue k cmd s') := by
  by_cases hs : s.sstate = .idle
  · rw [issue_idle hs, issue_idle (h.sstate.trans hs)]
    exact h.arm k cmd
  · rw [issue_busy hs, issue_busy (h.sstate ▸ hs)]
    exact h.emit _

/-- Ending the outstanding request reads PEND_KIND, which the two states then share (R31, R218). -/
theorem resolve (h : SameButUnread s s') (hw : s.sstate = .awaitingResponse) (r : Resolution) :
    SameButUnread (resolve r s) (resolve r s') := by
  refine ⟨?_, by simp⟩
  rw [h.eq, h.pend hw]
  cases r <;> rfl

theorem consumeEvent (h : SameButUnread s s') (ev : CodecEvent) :
    SameButUnread (consumeEvent s ev) (consumeEvent s' ev) := by
  by_cases hw : s.sstate = .awaitingResponse
  · have hw' : s'.sstate = .awaitingResponse := h.sstate.trans hw
    match ev with
    | .linkStatus .ok => simpa using h
    | .linkStatus (.err e) =>
      rw [consumeEvent_err hw, consumeEvent_err hw']
      exact h.resolve hw _
    | .frame f =>
      rw [consumeEvent_frame hw, consumeEvent_frame hw', h.cfg, h.pend hw]
      exact h.resolve hw _
  · rw [consumeEvent_ignored hw, consumeEvent_ignored (h.sstate ▸ hw)]
    exact h

theorem consumeEvents (evs : List CodecEvent) :
    ∀ {s s' : State}, SameButUnread s s' → SameButUnread (consumeEvents evs s) (consumeEvents evs s') := by
  induction evs with
  | nil => exact fun h => h
  | cons ev evs ih => exact fun h => ih (h.consumeEvent ev)

/-- The codec reads RXMODE, RXBUF, PROTSEL and the configuration, and writes LSTAT without reading it (R131). -/
theorem codecFeed (h : SameButUnread s s') (b : Byte) :
    (codecFeed b s').2 = (codecFeed b s).2 ∧ SameButUnread (codecFeed b s).1 (codecFeed b s').1 := by
  have hlen : s'.rxLen = s.rxLen := congrArg List.length h.rxBuf
  have hprot : isProtected s' s.rxLen = isProtected s s.rxLen := by
    simp only [isProtected, h.cfg, h.protSel, h.rxBuf]
  simp only [Machine.codecFeed, h.rxMode, h.cfg, hlen, hprot]
  split
  · split
    · exact ⟨rfl, by rw [h.eq], h.pend⟩
    · exact ⟨rfl, h⟩
  · split
    · exact ⟨by simp only [frameDone, h.cfg, h.rxBuf], by rw [h.eq]; rfl, h.pend⟩
    · split
      · exact ⟨rfl, by rw [h.eq]; rfl, h.pend⟩
      · split
        · exact ⟨rfl, by rw [h.eq]; rfl, h.pend⟩
        · exact ⟨rfl, by rw [h.eq]; rfl, h.pend⟩

theorem feedByte (h : SameButUnread s s') (b : Byte) : SameButUnread (feedByte b s) (feedByte b s') := by
  obtain ⟨hevs, hcodec⟩ := h.codecFeed b
  simp only [Machine.feedByte, hevs]
  exact (hcodec.emitAll _).consumeEvents _

theorem feedBytes (bs : Bytes) :
    ∀ {s s' : State}, SameButUnread s s' → SameButUnread (feedBytes bs s) (feedBytes bs s') := by
  induction bs with
  | nil => exact fun h => h
  | cons b bs ih => exact fun h => ih (h.feedByte b)

end SameButUnread

/-- Two answers that show no difference: the same refusal, or next states that agree on what is read. -/
inductive SameAnswer : Machine.Outcome → Machine.Outcome → Prop where
  | next {t t' : State} (h : SameButUnread t t') : SameAnswer (.next t) (.next t')
  | refused (r : Refusal) : SameAnswer (.refused r) (.refused r)

namespace SameAnswer

variable {o o' : Machine.Outcome}

theorem refused_iff (h : SameAnswer o o') (r : Refusal) : o = .refused r ↔ o' = .refused r := by
  cases h with
  | next h => simp
  | refused r' => rfl

theorem exists_next {t : State} (h : SameAnswer o o') (ho : o = .next t) :
    ∃ t', o' = .next t' ∧ t'.events = t.events ∧ SameButUnread t t' := by
  cases h with
  | next h => cases ho; exact ⟨_, rfl, h.events, h⟩
  | refused r => cases ho

end SameAnswer

namespace Machine

/-- An operation with bytes to feed is FEEDS of them (R121). -/
theorem exec_of_fed {i : Instr} {s : State} {bs : Bytes} (h : fed s.cfg i = some bs) :
    exec i s = .next (feedBytes bs (beginStep s)) := by
  cases i <;> cases h <;> rfl

end Machine

namespace SameButUnread

variable {s s' : State}

theorem exec_of_fed (h : SameButUnread s s') {i : Instr} {bs : Bytes} (hf : fed s.cfg i = some bs) :
    SameAnswer (exec i s) (exec i s') := by
  rw [Machine.exec_of_fed hf, Machine.exec_of_fed (h.cfg ▸ hf)]
  exact .next (h.beginStep.feedBytes bs)

/-- Every operation with an encoding answers alike; the internal micro-operations, which no port selects, need not. -/
theorem exec (h : SameButUnread s s') {i : Instr} (hi : (encode s.cfg i).isSome = true) :
    SameAnswer (exec i s) (exec i s') := by
  cases i with
  | protbyte p v => exact h.exec_of_fed rfl
  | digit p d => exact h.exec_of_fed rfl
  | term => exact h.exec_of_fed rfl
  | rspDeverr body => exact h.exec_of_fed rfl
  | rspInit m body => exact h.exec_of_fed rfl
  | rspCount m body => exact h.exec_of_fed rfl
  | rspMismatch data => exact h.exec_of_fed rfl
  | rspIgnored data => exact h.exec_of_fed rfl
  | feed b => exact h.exec_of_fed rfl
  | cmdInit o t b k =>
    simp only [Machine.exec, execCmdInit, h.cfg]
    exact .next (h.beginStep.returnValue _)
  | cmdCount c1 c2 =>
    simp only [Machine.exec, execCmdCount, h.cfg]
    split
    · exact .next (h.beginStep.returnValue _)
    · exact .refused _
  | nop => exact .next h.beginStep
  | issueInit o t b k =>
    simp only [Machine.exec, execIssueInit, h.cfg]
    exact .next (h.beginStep.issue _ _)
  | issueCount c1 c2 =>
    simp only [Machine.exec, execIssueCount, h.cfg]
    split
    · exact .next (h.beginStep.issue _ _)
    · exact .refused _
  | codecReset => exact .next h.beginStep.codecClear
  | txpop =>
    simp only [Machine.exec, execTxpop, h.txq]
    split
    · exact .refused _
    · exact .next ((h.beginStep.withTxq _).emit _)
  | reset => exact .next h.beginStep.resetBlock
  | _ => cases hi

/-- The two states select the same operation, the same idle step, or the same refusal (R260). -/
theorem step (h : SameButUnread s s') : SameAnswer (step s) (step s') := by
  cases hin : s.inputs with
  | nil =>
    rw [step_of_fetch_noStep (fetch_nil hin), step_of_fetch_noStep (fetch_nil (h.inputs.trans hin))]
    exact .next h.beginStep
  | cons w rest =>
    have hu : SameButUnread { s with inputs := rest } { s' with inputs := rest } := h.withInputs rest
    have hf := fetch_cons hin
    have hf' := fetch_cons (h.inputs.trans hin)
    rw [h.ctxOf_eq] at hf'
    cases hd : decode (ctxOf s) w with
    | ok i =>
      rw [hd, select_ok] at hf hf'
      rw [step_of_fetch_operation hf, step_of_fetch_operation hf']
      have hport : (encode s.cfg i).isSome = true := encode_isSome_of_decode hd
      exact hu.exec hport
    | error e =>
      rw [hd] at hf hf'
      by_cases hidle : e = .portIdle
      · rw [hidle, select_portIdle] at hf hf'
        rw [step_of_fetch_noStep hf, step_of_fetch_noStep hf']
        exact .next hu.beginStep
      · rw [select_error hidle] at hf hf'
        rw [step_of_fetch_rejected hf, step_of_fetch_rejected hf']
        exact .refused _

end SameButUnread

/-- Settles O55: the step reads nothing but what SameButUnread keeps equal (`SameButUnread.step`). -/
theorem unspecifiedRegistersAreNeverRead : Obligations.UnspecifiedRegistersAreNeverRead :=
  fun _ _ h => ⟨h.step.refused_iff, fun _ => h.step.exists_next⟩

end Sys2Proof

/-! PROOFS. The memories' statement (spec/20_memory.md): TXQ is first-in first-out, and only RESET discards from it (R78, R203,
R226). -/

namespace Sys2Proof

open Sys2Proof.Machine

namespace Machine

/-! The bytes a step's events put on the link (R44). -/

@[simp] theorem txBytes_nil : txBytes [] = [] := rfl

@[simp] theorem txBytes_append (as bs : List Event) : txBytes (as ++ bs) = txBytes as ++ txBytes bs :=
  List.filterMap_append

@[simp] theorem txBytes_txByte (b : Byte) (evs : List Event) : txBytes (.txByte b :: evs) = b :: txBytes evs := rfl

@[simp] theorem txBytes_completion (c : Completion) (evs : List Event) :
    txBytes (.completion c :: evs) = txBytes evs := rfl

@[simp] theorem txBytes_issueOutcome (o : IssueOutcome) (evs : List Event) :
    txBytes (.issueOutcome o :: evs) = txBytes evs := rfl

@[simp] theorem txBytes_linkStatus (c : LinkStatus) (evs : List Event) :
    txBytes (.linkStatus c :: evs) = txBytes evs := rfl

@[simp] theorem txBytes_frame (f : Bytes) (evs : List Event) : txBytes (.frame f :: evs) = txBytes evs := rfl

/-! What an operation enqueues (R203). -/

/-- An ISSUE enqueues the copies of its command exactly when it is accepted (R201 to R204). -/
theorem enqueued_of_issued {i : Instr} {s : State} {k : Kind} {cmd : Bytes} (h : issued s.cfg i = some (k, cmd)) :
    enqueued i s = if s.sstate = .idle then copies s.cfg cmd else [] := by
  cases i <;> cases h <;> rfl

/-- An operation that carries no command enqueues nothing (R226). -/
theorem enqueued_of_not_issued {i : Instr} {s : State} (h : issued s.cfg i = none) : enqueued i s = [] := by
  cases i <;> cases h <;> rfl

/-- An operation that feeds the codec carries no command. -/
theorem issued_of_fed {cfg : Config} {i : Instr} {bs : Bytes} (h : fed cfg i = some bs) : issued cfg i = none := by
  cases i <;> cases h <;> rfl

/-- An operation that hands its own events to the session carries no command. -/
theorem issued_of_consumed {i : Instr} {evs : List CodecEvent} (cfg : Config) (h : consumed i = some evs) :
    issued cfg i = none := by
  cases i <;> cases h <;> rfl

/-! The bytes of the link in order: those the step has sent, then those that wait. Only ISSUE adds to them, at the end. -/

/-- The bytes a step has put on the link so far, followed by those still in TXQ. -/
def sentThenQueued (s : State) : Bytes := txBytes s.events ++ s.txq

@[simp] theorem sentThenQueued_beginStep (s : State) : sentThenQueued (beginStep s) = s.txq := rfl

@[simp] theorem sentThenQueued_resolve (r : Resolution) (s : State) : sentThenQueued (resolve r s) = sentThenQueued s := by
  simp [sentThenQueued]

@[simp] theorem sentThenQueued_completeRequest (r : Resolution) (s : State) :
    sentThenQueued (completeRequest r s) = sentThenQueued s := by
  simp [sentThenQueued]

@[simp] theorem sentThenQueued_consumeEvent (s : State) (ev : CodecEvent) :
    sentThenQueued (consumeEvent s ev) = sentThenQueued s := by
  obtain h | ⟨-, r, -, h⟩ := consumeEvent_cases s ev <;> simp [h]

@[simp] theorem sentThenQueued_consumeEvents (evs : List CodecEvent) (s : State) :
    sentThenQueued (consumeEvents evs s) = sentThenQueued s := by
  obtain h | ⟨-, r, -, h⟩ := consumeEvents_cases evs s <;> simp [h]

/-- The codec's events are no bytes of the link, and the codec leaves TXQ alone (R131). -/
@[simp] theorem sentThenQueued_feedByte (b : Byte) (s : State) : sentThenQueued (feedByte b s) = sentThenQueued s := by
  obtain ⟨-, h⟩ | ⟨-, -, h⟩ | ⟨-, -, e, h⟩ | ⟨-, -, -, -, h⟩ := feedByte_cases b s <;> rw [h]
  · rfl
  · rw [sentThenQueued_consumeEvent]
    simp [sentThenQueued]
  · rw [sentThenQueued_consumeEvent]
    simp [sentThenQueued]
  · rfl

@[simp] theorem sentThenQueued_feedBytes (bs : Bytes) (s : State) :
    sentThenQueued (feedBytes bs s) = sentThenQueued s :=
  feedBytes_keeps (P := fun t => sentThenQueued t = sentThenQueued s)
    (fun b t ht => (sentThenQueued_feedByte b t).trans ht) bs rfl

/-- An ISSUE appends the copies of its command at the end, or nothing when it is BUSY (R203, R204). -/
theorem sentThenQueued_issue (k : Kind) (cmd : Bytes) (s : State) :
    sentThenQueued (issue k cmd s) = sentThenQueued s ++ if s.sstate = .idle then copies s.cfg cmd else [] := by
  by_cases hs : s.sstate = .idle
  · simp [issue_idle hs, sentThenQueued, hs]
  · simp [issue_busy hs, sentThenQueued, hs]

/-- TXPOP moves the head of TXQ onto the link (R225). -/
theorem sentThenQueued_pop (b : Byte) (rest : Bytes) (s : State) :
    sentThenQueued (emit (.txByte b) { beginStep s with txq := rest }) = b :: rest := by
  simp [sentThenQueued]

/-- What an operation other than RESET sends and leaves queued is what was queued, then what it enqueues (R226). -/
theorem exec_sentThenQueued {i : Instr} {s t : State} (hr : i ≠ .reset) (he : exec i s = .next t) :
    sentThenQueued t = s.txq ++ enqueued i s := by
  have kept (hi : issued s.cfg i = none) (ht : sentThenQueued t = s.txq) :
      sentThenQueued t = s.txq ++ enqueued i s := by
    rw [enqueued_of_not_issued hi, ht, List.append_nil]
  cases exec_effect he with
  | pure r _ hi => exact kept hi rfl
  | feeds bs h => exact kept (issued_of_fed h) (sentThenQueued_feedBytes bs _)
  | issues k cmd h =>
    rw [enqueued_of_issued h]
    exact sentThenQueued_issue k cmd (beginStep s)
  | clears h => exact kept (h ▸ rfl) rfl
  | pops b rest h hq => exact kept (h ▸ rfl) ((sentThenQueued_pop b rest s).trans hq.symm)
  | resets h => exact absurd h hr
  | consumes evs h => exact kept (issued_of_consumed s.cfg h) (sentThenQueued_consumeEvents evs _)
  | completes r h => exact kept (h ▸ rfl) (sentThenQueued_completeRequest r _)
  | folds h => exact kept (h ▸ rfl) rfl
  | failsFormat h => exact kept (h ▸ rfl) (sentThenQueued_resolve .formatFail _)
  | rejects h => exact kept (h ▸ rfl) rfl

end Machine

/-- Settles O52: the bytes sent followed by the bytes queued change in one way only, at the end (`exec_sentThenQueued`). -/
theorem transmitQueueIsFirstInFirstOut : Obligations.TransmitQueueIsFirstInFirstOut :=
  fun _ _ _ he hr => exec_sentThenQueued hr he

end Sys2Proof

/-! PROOFS. The encoding's statements (spec/30_encoding.md): decoding undoes encoding (R90 to R118), the bytes of the wire
formats and of the command frames, and what a whole response frame does (R104 to R106, R112, R121). -/

namespace Sys2Proof

open Sys2Proof.Machine

/-! Decoding. -/

namespace Laws.RoundTrip

/-- Every operation's word decodes back to it: the rows that have an encoding by their own lemmas, and the micro-operations
have none. -/
theorem statement (i : Instr) : Statement i := by
  cases i with
  | protbyte p v => exact protbyte p v
  | digit p d => exact digit p d
  | term => exact term
  | cmdInit o t b k => exact cmdInit o t b k
  | cmdCount c1 c2 => exact cmdCount c1 c2
  | rspDeverr body => exact rspDeverr body
  | rspInit m body => exact rspInit m body
  | rspCount m body => exact rspCount m body
  | rspMismatch data => exact rspMismatch data
  | rspIgnored data => exact rspIgnored data
  | nop => exact nop
  | issueInit o t b k => exact issueInit o t b k
  | issueCount c1 c2 => exact issueCount c1 c2
  | codecReset => exact codecReset
  | feed b => exact feed b
  | txpop => exact txpop
  | reset => exact reset
  | _ => exact of_none fun _ => rfl

end Laws.RoundTrip

/-- Settles O48: the row's own lemma of Laws.RoundTrip, for every row (`Laws.RoundTrip.statement`). -/
theorem decodeOfEncodeIsTheOperation : Obligations.DecodeOfEncodeIsTheOperation :=
  fun ctx i w => Laws.RoundTrip.statement i ctx w

/-- Settles O47: each word's decoding is computed. -/
theorem wordsDecodeAsTheSpecEncodesThem : Obligations.WordsDecodeAsTheSpecEncodesThem :=
  ⟨rfl, rfl, rfl, rfl, rfl, rfl, rfl, rfl, rfl, rfl⟩

/-! FEEDS does not read the events that stand before it, so the event list of a run is a concatenation (R121). -/

namespace Machine

/-- The state with the events `evs` before its own. -/
def withEventsBefore (evs : List Event) (s : State) : State := { s with events := evs ++ s.events }

theorem resolve_withEventsBefore (r : Resolution) (evs : List Event) (s : State) :
    resolve r (withEventsBefore evs s) = withEventsBefore evs (resolve r s) := by
  simp [withEventsBefore, resolve_withEvents]

theorem consumeEvent_withEventsBefore (ev : CodecEvent) (evs : List Event) (s : State) :
    consumeEvent (withEventsBefore evs s) ev = withEventsBefore evs (consumeEvent s ev) := by
  by_cases hw : s.sstate = .awaitingResponse
  · have hw' : (withEventsBefore evs s).sstate = .awaitingResponse := hw
    match ev with
    | .linkStatus .ok => rw [consumeEvent_ok, consumeEvent_ok]
    | .linkStatus (.err e) => rw [consumeEvent_err hw, consumeEvent_err hw', resolve_withEventsBefore]
    | .frame f =>
      rw [consumeEvent_frame hw, consumeEvent_frame hw', ← resolve_withEventsBefore]
      rfl
  · have hw' : (withEventsBefore evs s).sstate ≠ .awaitingResponse := hw
    rw [consumeEvent_ignored hw, consumeEvent_ignored hw']

/-- FEED neither reads the events nor writes those that stand there, in each of its five cases (R131). -/
theorem feedByte_withEventsBefore (b : Byte) (evs : List Event) (s : State) :
    feedByte b (withEventsBefore evs s) = withEventsBefore evs (feedByte b s) := by
  obtain hm | hm : s.rxMode = .drop ∨ s.rxMode = .assemble := by cases s.rxMode <;> simp
  · rw [feedByte_drop hm, feedByte_drop (s := withEventsBefore evs s) hm]
    rfl
  by_cases hb : b = s.cfg.term
  · rw [feedByte_term hm hb, feedByte_term (s := withEventsBefore evs s) hm hb, ← consumeEvent_withEventsBefore]
    simp [withEventsBefore]
  by_cases hl : s.rxLen = s.cfg.frameMax - 1
  · rw [feedByte_overflow hm hb hl, feedByte_overflow (s := withEventsBefore evs s) hm hb hl,
      ← consumeEvent_withEventsBefore]
    simp [withEventsBefore]
  by_cases hp : isProtected s s.rxLen = true → parityOk b = true
  · rw [feedByte_store hm hb hl hp, feedByte_store (s := withEventsBefore evs s) hm hb hl hp]
    rfl
  · obtain ⟨hi, hq⟩ := Classical.not_imp.mp hp
    have hq : parityOk b = false := by simpa using hq
    rw [feedByte_parity hm hb hl hi hq, feedByte_parity (s := withEventsBefore evs s) hm hb hl hi hq,
      ← consumeEvent_withEventsBefore]
    simp [withEventsBefore]

theorem feedBytes_withEventsBefore (bs : Bytes) (evs : List Event) :
    ∀ s : State, feedBytes bs (withEventsBefore evs s) = withEventsBefore evs (feedBytes bs s) := by
  induction bs with
  | nil => exact fun s => rfl
  | cons b bs ih =>
    intro s
    rw [feedBytes_cons, feedBytes_cons, feedByte_withEventsBefore, ih]

/-- A state that returned nothing is the start of a step with its events before it. -/
theorem withEventsBefore_beginStep {s : State} (h : s.result = none) : withEventsBefore s.events (beginStep s) = s := by
  obtain ⟨⟩ := s
  cases h
  simp [withEventsBefore, beginStep]

/-- Feeding a byte first: the rest of the bytes, fed in a step of their own, with the byte's events before theirs (R121). -/
theorem feedBytes_cons_beginStep (b : Byte) (bs : Bytes) (s : State) :
    feedBytes (b :: bs) (beginStep s) =
      withEventsBefore (feedByte b (beginStep s)).events (feedBytes bs (beginStep (feedByte b (beginStep s)))) := by
  obtain ⟨-, -, -, -, hresult, -⟩ := feedByte_frame b (beginStep s)
  rw [← feedBytes_withEventsBefore, withEventsBefore_beginStep hresult, feedBytes_cons]

end Machine

/-- Settles O24: a frame with one more byte is FEED and then the rest (`feedBytes_cons_beginStep`), and each row's bytes are
those of its data and TERM. -/
theorem responseFramesAreFedByteByByte : Obligations.ResponseFramesAreFedByteByByte := by
  refine ⟨fun s => rfl, fun s b data => ?_, fun s data => rfl, fun s body => rfl, fun s m body => rfl, fun s m body => rfl⟩
  refine ⟨feedByte b (beginStep s), _, rfl, rfl, ?_⟩
  obtain ⟨hcfg, -⟩ := feedByte_frame b (beginStep s)
  rw [hcfg]
  exact congrArg Host.Outcome.next (feedBytes_cons_beginStep b (close s.cfg data) s)

/-! A whole response frame, fed from the start of a frame (R134, R138). -/

/-- The start of a step changes nothing that the codec reads. -/
theorem FrameArrives.beginStep {s : State} {data : Bytes} (h : FrameArrives s data) : FrameArrives (beginStep s) data :=
  ⟨h.assemble, h.empty, h.noTerm, h.fits, h.passes⟩

/-- No raw byte of a well-formed configuration is TERM. -/
theorem Config.WF.ne_term {cfg : Config} (hc : cfg.WF) {b : Byte} (h : b ∈ cfg.rawBytes) : b ≠ cfg.term :=
  fun hb => hc.termApart (hb ▸ h)

namespace Machine

/-- With no request outstanding a frame that arrives is delivered and ignored (R209). -/
theorem exec_frame_ignored {i : Instr} {s : State} {data : Bytes} (hi : fed s.cfg i = some (close s.cfg data))
    (hs : s.sstate ≠ .awaitingResponse) (h : FrameArrives s data) :
    exec i s = .next { s with
      lstat := .lsOk, events := [.linkStatus .ok, .frame (close s.cfg data)], result := none } := by
  rw [exec_of_fed hi]
  refine congrArg Host.Outcome.next ((feedBytes_frame_arrives h.beginStep).trans ?_)
  rw [consumeEvent_ignored (by exact hs)]
  rfl

/-- A frame that arrives while a request is outstanding ends it by the frame's verdict, in one step (R208, R211). -/
theorem exec_frame_resolves {i : Instr} {s : State} {data : Bytes} {k : Kind} {r : Resolution}
    (hi : fed s.cfg i = some (close s.cfg data)) (hs : s.sstate = .awaitingResponse) (hk : s.pendKind = k)
    (h : FrameArrives s data) (hv : verdict s.cfg k (close s.cfg data) = r) :
    exec i s = .next { saveResult r s with
      lstat := .lsOk, sstate := .idle, resValid := true, resOk := okOf r, resErr := errOf r, resKind := k,
      events := [.linkStatus .ok, .frame (close s.cfg data), .completion (completionOf k r)], result := none } := by
  subst hk hv
  rw [exec_of_fed hi]
  refine congrArg Host.Outcome.next ((feedBytes_frame_arrives h.beginStep).trans ?_)
  rw [consumeEvent_frame (by exact hs)]
  change resolve (verdict s.cfg s.pendKind (close s.cfg data)) _ = _
  cases verdict s.cfg s.pendKind (close s.cfg data) <;> rfl

theorem expHeader_mem_rawBytes (cfg : Config) (k : Kind) :
    (expHeader cfg k).1 ∈ cfg.rawBytes ∧ (expHeader cfg k).2 ∈ cfg.rawBytes := by
  cases k <;> simp [expHeader, Config.rawBytes]

theorem errmark_mem_rawBytes (cfg : Config) : cfg.errmark ∈ cfg.rawBytes := List.mem_cons_self

/-- A byte other than TERM that stands in a closed frame stands in its data. -/
theorem getElem?_of_close {cfg : Config} {data : Bytes} {off : Nat} {b : Byte} (hb : b ≠ cfg.term)
    (h : (close cfg data)[off]? = some b) : data[off]? = some b := by
  rw [close, List.getElem?_append] at h
  split at h
  · exact h
  · exact absurd (List.mem_singleton.mp (List.mem_of_getElem? h)) hb

/-- A frame opened by ERRMARK arrives whatever PROTMAP is: offset 0 has right parity, the rest is exempt (R135). -/
theorem frameArrives_deverr {s : State} {body : Bytes} (hc : s.cfg.WF) (hm : s.rxMode = .assemble) (he : s.rxBuf = [])
    (hd : DataBytes s.cfg body) (hl : body.length + 2 ≤ s.cfg.frameMax) : FrameArrives s (s.cfg.errmark :: body) where
  assemble := hm
  empty := he
  noTerm := by
    have hmark := hc.ne_term (errmark_mem_rawBytes s.cfg)
    simp only [DataBytes, List.mem_cons, not_or]
    exact ⟨hmark.symm, hd⟩
  fits := hl
  passes := by
    intro off b hb _
    cases off with
    | zero => cases hb; exact .inr hc.markParity
    | succ off => exact .inl ⟨by omega, by simp [isDeviceError]⟩

/-- A frame with another byte than ERRMARK first carries no marker (R211). -/
theorem isDeviceError_headedFrame {cfg : Config} {m : Byte} (h : m ≠ cfg.errmark) (k : Kind) (body : Bytes) :
    isDeviceError cfg (headedFrame cfg k m body) = false := by
  simp [isDeviceError, headedFrame, close, h]

@[simp] theorem headerMatches_headedFrame (cfg : Config) (k : Kind) (m : Byte) (body : Bytes) :
    headerMatches cfg k (headedFrame cfg k m body) = true := by
  simp [headerMatches, headedFrame, close]

/-- A closed frame has no marker that its data has not: TERM is not ERRMARK (R214). -/
theorem isDeviceError_close {cfg : Config} {data : Bytes} (hc : cfg.WF) (h : data.head? ≠ some cfg.errmark) :
    isDeviceError cfg (close cfg data) = false := by
  rw [← Bool.not_eq_true, isDeviceError_iff, List.head?_eq_getElem?]
  rw [List.head?_eq_getElem?] at h
  exact fun hm => h (getElem?_of_close (hc.ne_term (errmark_mem_rawBytes cfg)) hm)

/-- A closed frame has no header byte that its data has not: TERM is no header byte (R214). -/
theorem headerMatches_close {cfg : Config} {k : Kind} {data : Bytes} (hc : cfg.WF)
    (h : data[1]? ≠ some (expHeader cfg k).1 ∨ data[2]? ≠ some (expHeader cfg k).2) :
    headerMatches cfg k (close cfg data) = false := by
  rw [← Bool.not_eq_true, headerMatches_iff]
  rintro ⟨h1, h2⟩
  obtain ⟨m1, m2⟩ := expHeader_mem_rawBytes cfg k
  obtain h | h := h
  · exact h (getElem?_of_close (hc.ne_term m1) h1)
  · exact h (getElem?_of_close (hc.ne_term m2) h2)

/-- A decoded number of the range is kept by its 7-bit register (R20, R36). -/
theorem count_toNat {n : Nat} (h : n ≤ COUNT_MAX) : (BitVec.ofNat 7 n).toNat = n := by
  simp only [COUNT_MAX] at h
  rw [BitVec.toNat_ofNat]
  omega

end Machine

/-- Settles O25: such a frame always arrives (`frameArrives_deverr`), and its verdict is the marker's. -/
theorem deviceErrorFrameAlwaysFailsTheRequest : Obligations.DeviceErrorFrameAlwaysFailsTheRequest := by
  intro s body hc hs hm he hd hl
  exact exec_frame_resolves rfl hs rfl (frameArrives_deverr hc hm he hd hl) (verdict_deviceError (by simp [isDeviceError, close]))

/-- Settles O26: the verdict of a frame with the Initialize header is success. -/
theorem initializeResponseFrameSucceeds : Obligations.InitializeResponseFrameSucceeds := by
  intro s m body hs hk hm ha
  exact exec_frame_resolves rfl hs hk ha
    (verdict_init (isDeviceError_headedFrame hm .kInit body) (headerMatches_headedFrame s.cfg .kInit m body))

/-- Settles O27: the verdict of a frame with the Count header is the decoder's, whose numbers fit the registers. -/
theorem countResponseFrameIsDecoded : Obligations.CountResponseFrameIsDecoded := by
  intro s m body hs hk hm ha
  have hv := verdict_count (isDeviceError_headedFrame hm .kCount body) (headerMatches_headedFrame s.cfg .kCount m body)
  refine ⟨fun c hc => ?_, fun hc => ?_⟩
  · obtain ⟨h1, h2, h3, h4⟩ := decCount_le hc
    have hdec : decCount s.cfg (headedFrame s.cfg .kCount m body) = some c := hc
    rw [hdec] at hv
    exact ⟨_, exec_frame_resolves rfl hs hk ha hv, count_toNat h1, count_toNat h2, count_toNat h3, count_toNat h4, rfl⟩
  · have hdec : decCount s.cfg (headedFrame s.cfg .kCount m body) = none := hc
    rw [hdec] at hv
    exact exec_frame_resolves rfl hs hk ha hv

/-- Settles O28: TERM can be neither the marker nor a header byte, so the frame has what its data has. -/
theorem otherFrameIsAHeaderMismatch : Obligations.OtherFrameIsAHeaderMismatch := by
  intro s data hc hs ha hm hh
  exact exec_frame_resolves rfl hs rfl ha (verdict_headerMismatch (isDeviceError_close hc hm) (headerMatches_close hc hh))

/-- Settles O29: the frame is delivered, and the session does not take it (`exec_frame_ignored`). -/
theorem frameWithoutRequestIsIgnored : Obligations.FrameWithoutRequestIsIgnored :=
  fun _ _ hs ha => exec_frame_ignored rfl hs ha

/-! The bytes of the wire formats (R90 to R94). -/

namespace Machine

theorem joinByte_toNat (p : Bool) (v : Val7) : (joinByte p v).toNat = p.toNat * 128 + v.toNat := by
  rw [joinByte, BitVec.toNat_append, ← Nat.shiftLeft_add_eq_or_of_lt v.isLt, Nat.shiftLeft_eq, BitVec.toNat_ofBool]

theorem digitCode_toNat_mod (cfg : Config) (d : Nat) : (digitCode cfg d).toNat = (cfg.digitBase.toNat + d) % 128 := by
  simp [digitCode]

end Machine

/-- Settles O23: the three operations feed the one byte that `joinByte`, or TERM, gives. -/
theorem wireBytesAreFed : Obligations.WireBytesAreFed := by
  refine ⟨fun s p v => ⟨joinByte p v, _, joinByte_toNat p v, rfl, rfl⟩, fun s p d => ?_, fun s => ⟨_, rfl, rfl⟩⟩
  exact ⟨joinByte p (digitCode s.cfg d.toNat), _, by rw [joinByte_toNat, digitCode_toNat_mod], rfl, rfl⟩

/-! The command frames (R100, R101, R183). -/

namespace Machine

/-- The bytes of a digit pair are protected bytes, so neither is TERM (R93, R164). -/
theorem term_not_mem_dpenc {cfg : Config} (hc : cfg.WF) (n : Nat) : cfg.term ∉ dpenc cfg n := by
  simp only [dpenc, List.mem_cons, List.not_mem_nil, or_false, not_or]
  exact ⟨(Machine.ne_term hc (parityOk_prot _)).symm, (Machine.ne_term hc (parityOk_prot _)).symm⟩

theorem term_not_mem_of_raw {cfg : Config} (hc : cfg.WF) {bs : Bytes} (h : bs ⊆ cfg.rawBytes) : cfg.term ∉ bs :=
  fun ht => hc.termApart (h ht)

theorem isFrame_close {cfg : Config} {data : Bytes} (h : DataBytes cfg data) : IsFrame cfg (close cfg data) := by
  simp [IsFrame, openFrame_close h]

/-- The Count command is one frame: before its TERM stand digit pairs and raw bytes alone (R183 f). -/
theorem isFrame_encCount {cfg : Config} (hc : cfg.WF) (c1 c2 : Nat) : IsFrame cfg (encCount cfg c1 c2) := by
  have hpair (n : Nat) : cfg.term ∉ dpenc cfg n := term_not_mem_dpenc hc n
  have hop : cfg.term ∉ [cfg.cmdOp, cfg.countClass, cfg.countSub, cfg.countOption] :=
    term_not_mem_of_raw hc (by simp [Config.rawBytes])
  have hretry : cfg.term ∉ [cfg.retryCount, cfg.retryCount, cfg.retryCount, cfg.retryCount] :=
    term_not_mem_of_raw hc (by simp [Config.rawBytes])
  refine isFrame_close (cfg := cfg) (data := _) ?_
  simp only [DataBytes, List.mem_append, hop, hpair, hretry, or_self, not_false_eq_true]

end Machine

/-- Settles O39: the length is the layout's, and the frame `isFrame_encCount`'s. -/
theorem countCommandIsOneFrame : Obligations.CountCommandIsOneFrame :=
  fun cfg c1 c2 hc _ _ => ⟨rfl, (commandLengths cfg).2, isFrame_encCount hc c1 c2⟩

namespace Machine

theorem exec_cmdCount {c1 c2 : Nat} (h1 : c1 ≤ 99) (h2 : c2 ≤ 99) (s : State) :
    exec (.cmdCount c1 c2) s = .next (returnValue (.bytes (encCount s.cfg c1 c2)) (beginStep s)) :=
  if_pos (by simp [inRange_iff, COUNT_MAX, h1, h2])

theorem exec_cmdCount_refused {c1 c2 : Nat} (h : 99 < c1 ∨ 99 < c2) (s : State) :
    exec (.cmdCount c1 c2) s = .refused .operandRange :=
  if_neg (by simp only [Bool.and_eq_true, inRange_iff, COUNT_MAX]; omega)

/-- The Initialize command with the spec's values (R100). -/
theorem encInit_of_default {cfg : Config} (hc : cfg = Config.default) (o t b k : Byte) :
    encInit cfg o t b k = [0x60, 0x02, 0x0D, o, t, b, 0, 0, 0, 0, k, k, k, k, 0x1C] := by
  subst hc
  rfl

/-- The Count command with the spec's values (R101): after the counts stand D(0) twice, D(4) four times, 3 four times, 1C. -/
theorem encCount_of_default {cfg : Config} (hc : cfg = Config.default) (c1 c2 : Nat) : encCount cfg c1 c2 =
    [0x60, 0x03, 0x15, 0xE4] ++ dpenc cfg c1 ++ dpenc cfg c2 ++
      [0x30, 0x30, 0x30, 0x30, 0x30, 0xB4, 0x30, 0xB4, 0x30, 0xB4, 0x30, 0xB4, 3, 3, 3, 3, 0x1C] := by
  subst hc
  rfl

end Machine

/-- Settles O30: the returned bytes are the encoders', which hold the spec's literals under the spec's configuration. -/
theorem commandFramesHaveTheirLayout : Obligations.CommandFramesHaveTheirLayout := by
  refine ⟨fun s o t b k => rfl, fun s c1 c2 h1 h2 => ?_, fun s o t b k hc => ?_, fun s c1 c2 hc h1 h2 => ?_,
    fun s c1 c2 h => exec_cmdCount_refused h s⟩
  · exact exec_cmdCount h1 h2 s
  · rw [← encInit_of_default hc]
    rfl
  · rw [exec_cmdCount h1 h2, encCount_of_default hc]
    rfl

/-- Settles O31: NOP is the start of a step and nothing more. -/
theorem nopLeavesTheBlockAsItIs : Obligations.NopLeavesTheBlockAsItIs := fun _ => rfl

end Sys2Proof

/-! PROOFS. The frame codec's statements (spec/40_frame_codec.md): FEED in each of its five cases (R133 to R138), CODEC_RESET
(R140), resynchronisation (R144), and that the codec does not consult the session (R145). -/

namespace Sys2Proof

open Sys2Proof.Machine

/-! The cases in which the session has no part (R133, R138, R140). -/

/-- Settles O3: case 1 of FEED (`feedByte_drop`). -/
theorem feedInDropDiscards : Obligations.FeedInDropDiscards :=
  fun s b h => congrArg Host.Outcome.next (feedByte_drop (s := beginStep s) h b)

/-- Settles O7: case 5 of FEED (`feedByte_store`). -/
theorem feedStoresTheByte : Obligations.FeedStoresTheByte :=
  fun s _ hm hb hl hp => congrArg Host.Outcome.next (feedByte_store (s := beginStep s) hm hb hl hp)

/-- Settles O36: 3 is the last of the four values of hc_op (R118), and the operation is `codecClear`. -/
theorem codecResetClearsOnlyTheCodec : Obligations.CodecResetClearsOnlyTheCodec :=
  ⟨fun _ _ _ _ _ => rfl, fun _ => rfl⟩

/-! The codec's own events (R44). -/

namespace Machine

@[simp] theorem linkEvents_nil : linkEvents [] = [] := rfl

@[simp] theorem linkEvents_append (as bs : List Event) : linkEvents (as ++ bs) = linkEvents as ++ linkEvents bs :=
  List.filter_append as bs

@[simp] theorem linkEvents_completion (c : Completion) (evs : List Event) :
    linkEvents (.completion c :: evs) = linkEvents evs := rfl

end Machine

/-- Settles O4: case 2 of FEED (`feedByte_term`); the session adds a Completion or nothing, and writes no codec register. -/
theorem feedTermCompletesTheFrame : Obligations.FeedTermCompletesTheFrame := by
  intro s hm
  have hfeed := feedByte_term (s := beginStep s) (b := s.cfg.term) hm rfl
  obtain h | ⟨-, r, -, h⟩ := consumeEvent_cases
    { beginStep s with rxBuf := [], lstat := .lsOk, events := [.linkStatus .ok, .frame (close s.cfg s.rxBuf)] }
    (.frame (close s.cfg s.rxBuf))
  · exact ⟨_, [], congrArg Host.Outcome.next (hfeed.trans h), rfl, rfl, rfl, hm, rfl, rfl, rfl, rfl, rfl, rfl⟩
  · refine ⟨_, [.completion (completionOf s.pendKind r)], congrArg Host.Outcome.next (hfeed.trans h), ?_⟩
    simp [close, hm]

/-! A link error (R136, R137), and the failure of an outstanding request (R212). -/

namespace Machine

/-- The byte `b` breaks the frame that the codec assembles: it overflows the buffer, or has wrong parity at a protected
offset; the overflow is tested first (R131). -/
inductive BreaksFrame (b : Byte) (s : State) : LinkErr → Prop where
  | overflow (hl : s.rxLen = s.cfg.frameMax - 1) : BreaksFrame b s .overflow
  | parity (hl : s.rxLen ≠ s.cfg.frameMax - 1) (hp : isProtected s s.rxLen = true) (hq : parityOk b = false) :
      BreaksFrame b s .parity

/-- What a link error leaves before the session consumes it (R136, R137). -/
def linkBroken (e : LinkErr) (s : State) : State := emitAll (linkFail e s).2 (linkFail e s).1

namespace BreaksFrame

variable {s : State} {b : Byte} {e : LinkErr}

/-- Cases 3 and 4 of FEED (R136, R137). -/
theorem feedByte_eq (h : BreaksFrame b s e) (hm : s.rxMode = .assemble) (hb : b ≠ s.cfg.term) :
    feedByte b s = consumeEvent (linkBroken e s) (.linkStatus (.err e)) := by
  cases h with
  | overflow hl => exact feedByte_overflow hm hb hl
  | parity hl hp hq => exact feedByte_parity hm hb hl hp hq

/-- With no request outstanding a link error is the codec's alone (R209). -/
theorem feedByte_idle (h : BreaksFrame b s e) (hm : s.rxMode = .assemble) (hb : b ≠ s.cfg.term)
    (hs : s.sstate ≠ .awaitingResponse) : feedByte b s = linkBroken e s := by
  rw [h.feedByte_eq hm hb, consumeEvent_ignored (by exact hs)]

/-- A link error fails the outstanding request (R212). -/
theorem feedByte_awaiting (h : BreaksFrame b s e) (hm : s.rxMode = .assemble) (hb : b ≠ s.cfg.term)
    (hs : s.sstate = .awaitingResponse) : feedByte b s = resolve (.linkError e) (linkBroken e s) := by
  rw [h.feedByte_eq hm hb, consumeEvent_err (by exact hs)]

/-- FEED of a byte that breaks the frame, with no request outstanding and with one. -/
theorem exec_feed (h : BreaksFrame b (beginStep s) e) (hm : s.rxMode = .assemble) (hb : b ≠ s.cfg.term) :
    (s.sstate ≠ .awaitingResponse → exec (.feed b) s = .next (linkBroken e (beginStep s))) ∧
    (s.sstate = .awaitingResponse →
      exec (.feed b) s = .next (resolve (.linkError e) (linkBroken e (beginStep s)))) :=
  ⟨fun hs => congrArg Host.Outcome.next (h.feedByte_idle hm hb hs),
    fun hs => congrArg Host.Outcome.next (h.feedByte_awaiting hm hb hs)⟩

/-- After a link error the codec drops with nothing stored, and no request is outstanding (R136, R137, R212). -/
theorem feedByte_drops (h : BreaksFrame b s e) (hm : s.rxMode = .assemble) (hb : b ≠ s.cfg.term) :
    (feedByte b s).rxMode = .drop ∧ (feedByte b s).rxBuf = [] ∧ (feedByte b s).sstate ≠ .awaitingResponse := by
  by_cases hs : s.sstate = .awaitingResponse
  · rw [h.feedByte_awaiting hm hb hs]
    exact ⟨rfl, rfl, by simp⟩
  · rw [h.feedByte_idle hm hb hs]
    exact ⟨rfl, rfl, hs⟩

end BreaksFrame

end Machine

/-- Settles O5: the frame breaks by overflow (`BreaksFrame.exec_feed`). -/
theorem feedOverflowDropsTheFrame : Obligations.FeedOverflowDropsTheFrame :=
  fun s b hm hb hl => (BreaksFrame.overflow (b := b) (s := beginStep s) hl).exec_feed hm hb

/-- Settles O6: with room left, the frame breaks by its parity (`BreaksFrame.exec_feed`). -/
theorem feedParityFailureDropsTheFrame : Obligations.FeedParityFailureDropsTheFrame := by
  intro s b hm hb hl hp hq
  have hparity : parityOk b = false := beq_eq_false_iff_ne.mpr hq
  exact (BreaksFrame.parity (s := beginStep s) hl.ne hp hparity).exec_feed hm hb

/-! Resynchronisation (R144). -/

namespace Machine

/-- In DROP with nothing stored, a frame up to its terminator leaves what CODEC_RESET leaves (R133, R140). -/
theorem exec_frame_dropped {i : Instr} {s : State} {rest : Bytes} (hi : fed s.cfg i = some (close s.cfg rest))
    (hm : s.rxMode = .drop) (he : s.rxBuf = []) (hd : DataBytes s.cfg rest) :
    exec i s = .next (codecClear (beginStep s)) := by
  rw [exec_of_fed hi]
  refine congrArg Host.Outcome.next ((feedBytes_drop rest (beginStep s) hm hd).trans ?_)
  simp [codecClear, beginStep, he]

end Machine

/-- Settles O56: the broken frame's rest is dropped (`exec_frame_dropped`), and the next frame arrives at an empty buffer. -/
theorem resynchronisationLeavesNoResidue : Obligations.ResynchronisationLeavesNoResidue := by
  intro s b rest data hm hb hbreak hrest hdata hfits hpass
  obtain ⟨e, he⟩ : ∃ e, BreaksFrame b (beginStep s) e := by
    by_cases hl : s.rxLen = s.cfg.frameMax - 1
    · exact ⟨_, .overflow hl⟩
    · obtain ⟨hp, hq⟩ := hbreak.resolve_left hl
      exact ⟨_, .parity hl hp hq⟩
  obtain ⟨hdrop, hempty, hidle⟩ := he.feedByte_drops hm hb
  obtain ⟨hcfg, hsel, -⟩ := feedByte_frame b (beginStep s)
  generalize ht : feedByte b (beginStep s) = t at hdrop hempty hidle hcfg hsel
  rw [beginStep_cfg] at hcfg
  rw [beginStep_protSel] at hsel
  have harrives : FrameArrives (codecClear (beginStep t)) data :=
    { assemble := rfl
      empty := rfl
      noTerm := by simpa [hcfg] using hdata
      fits := by simpa [hcfg] using hfits
      passes := by simpa [PassesCheck, hcfg, hsel] using hpass }
  refine ⟨t, _, _, congrArg Host.Outcome.next ht, hdrop, exec_frame_dropped rfl hdrop hempty (hcfg ▸ hrest), rfl, rfl,
    exec_frame_ignored rfl hidle harrives, ?_, rfl, rfl, rfl⟩
  simp [close, hcfg]

/-! The codec does not consult the session (R130, R145). -/

namespace Machine

/-- What the codec reads and writes (R23 to R27, R44): its registers, PROTSEL, the configuration and its events. -/
structure CodecView where
  rxMode : RxMode
  rxBuf : Bytes
  protSel : ProtSel
  lstat : LStat
  cfg : Config
  events : List Event

def codecView (s : State) : CodecView where
  rxMode := s.rxMode
  rxBuf := s.rxBuf
  protSel := s.protSel
  lstat := s.lstat
  cfg := s.cfg
  events := linkEvents s.events

theorem codecView_eq_iff {s t : State} : codecView t = codecView s ↔
    t.rxMode = s.rxMode ∧ t.rxBuf = s.rxBuf ∧ t.protSel = s.protSel ∧ t.lstat = s.lstat ∧ t.cfg = s.cfg ∧
      linkEvents t.events = linkEvents s.events := by
  simp [codecView]

/-- The session writes nothing of the codec's part (R28, R208). -/
theorem codecView_consumeEvents (evs : List CodecEvent) (s : State) :
    codecView (consumeEvents evs s) = codecView s := by
  obtain h | ⟨-, r, -, h⟩ := consumeEvents_cases evs s <;> rw [h]
  simp [codecView]

theorem codecView_emitAll_congr {s t : State} (h : codecView t = codecView s) (evs : List CodecEvent) :
    codecView (emitAll evs t) = codecView (emitAll evs s) := by
  obtain ⟨hm, hbuf, hsel, hl, hcfg, hev⟩ := codecView_eq_iff.mp h
  simp [codecView, hm, hbuf, hsel, hl, hcfg, hev]

/-- The codec part of FEED reads and writes the codec's part alone, in each of its five cases (R131). -/
theorem codecFeed_congr {s t : State} (h : codecView t = codecView s) (b : Byte) :
    (codecFeed b t).2 = (codecFeed b s).2 ∧ codecView (codecFeed b t).1 = codecView (codecFeed b s).1 := by
  obtain ⟨hm, hbuf, hsel, hl, hcfg, hev⟩ := codecView_eq_iff.mp h
  have hlen : t.rxLen = s.rxLen := congrArg List.length hbuf
  have hprot : isProtected t s.rxLen = isProtected s s.rxLen := by
    simp only [isProtected, hcfg, hsel, hbuf]
  simp only [codecFeed, hm, hcfg, hlen, hprot]
  split
  · split
    · simp [codecView, hbuf, hsel, hl, hev]
    · exact ⟨rfl, h⟩
  · split
    · simp [codecView, frameDone, hm, hbuf, hsel, hcfg, hev]
    · split
      · simp [codecView, linkFail, hsel, hcfg, hev]
      · split
        · simp [codecView, linkFail, hsel, hcfg, hev]
        · simp [codecView, storeByte, hm, hbuf, hsel, hl, hcfg, hev]

theorem codecView_feedByte_congr {s t : State} (h : codecView t = codecView s) (b : Byte) :
    codecView (feedByte b t) = codecView (feedByte b s) := by
  obtain ⟨hevs, hcodec⟩ := codecFeed_congr h b
  simp only [feedByte, codecView_consumeEvents, hevs]
  exact codecView_emitAll_congr hcodec _

end Machine

/-- Settles O10: FEED's codec part follows from the codec's part alone (`codecView_feedByte_congr`). -/
theorem codecDoesNotConsultTheSession : Obligations.CodecDoesNotConsultTheSession := by
  intro s u b hm hbuf hsel hl hcfg
  have h : codecView (beginStep s) = codecView (beginStep u) := codecView_eq_iff.mpr ⟨hm, hbuf, hsel, hl, hcfg, rfl⟩
  obtain ⟨hm', hbuf', hsel', hl', -, hev'⟩ := codecView_eq_iff.mp (codecView_feedByte_congr h b)
  exact ⟨_, _, rfl, rfl, hm', hbuf', hsel', hl', hev'⟩

end Sys2Proof

/-! PROOFS. The statements on parity and digit pairs (spec/41_parity_digitpair.md): PAR7, PROT and PARITY_OK (R160 to R163),
DPENC and DPDEC (R164 to R167). -/

namespace Sys2Proof

open Sys2Proof.Machine

/-! Digit pairs (R164 to R167). -/

namespace Machine

/-- Two bytes that carry the tens and the units of n are D(n) exactly when both have right parity (R167). -/
theorem dpenc_eq_pair_iff {cfg : Config} {n : Nat} {hi lo : Byte} (hhi : low7 hi = digitCode cfg (n / 10))
    (hlo : low7 lo = digitCode cfg (n % 10)) :
    dpenc cfg n = [hi, lo] ↔ parityOk hi = true ∧ parityOk lo = true := by
  rw [dpenc, ← hhi, ← hlo, List.cons.injEq, List.cons.injEq, prot_low7, prot_low7, and_iff_left rfl]

/-- A digit's code is DIGIT_BASE + d in seven bits (R94). -/
theorem digitCode_eq_ofNat (cfg : Config) (d : Nat) : digitCode cfg d = BitVec.ofNat 7 (cfg.digitBase.toNat + d) :=
  BitVec.eq_of_toNat_eq (by rw [digitCode_toNat_mod, BitVec.toNat_ofNat])

theorem low7_toNat (b : Byte) : (low7 b).toNat = b.toNat % 128 := BitVec.toNat_setWidth 7 b

theorem digitOf_eq_none_iff {cfg : Config} {b : Byte} : digitOf cfg b = none ↔
    b.toNat % 128 < cfg.digitBase.toNat ∨ cfg.digitBase.toNat + 9 < b.toNat % 128 := by
  simp only [digitOf, low7_toNat, ite_eq_right_iff, reduceCtorEq, imp_false]
  omega

theorem digitOf_eq_some_iff {cfg : Config} {b : Byte} {d : Nat} : digitOf cfg b = some d ↔
    b.toNat % 128 = cfg.digitBase.toNat + d ∧ d ≤ 9 := by
  simp only [digitOf, low7_toNat, Option.ite_none_right_eq_some, Option.some.injEq]
  omega

/-- DPDEC, as arithmetic on the low seven bits of its two bytes (R166). -/
theorem dpdec_eq (cfg : Config) (hi lo : Byte) : dpdec cfg hi lo =
    if hi.toNat % 128 < cfg.digitBase.toNat ∨ cfg.digitBase.toNat + 9 < hi.toNat % 128 ∨
      lo.toNat % 128 < cfg.digitBase.toNat ∨ cfg.digitBase.toNat + 9 < lo.toNat % 128 then none
    else some (10 * (hi.toNat % 128 - cfg.digitBase.toNat) + (lo.toNat % 128 - cfg.digitBase.toNat)) := by
  cases hhi : digitOf cfg hi with
  | none =>
    have hout := digitOf_eq_none_iff.mp hhi
    rw [if_pos (by omega)]
    simp [dpdec, hhi]
  | some t =>
    obtain ⟨ht, ht9⟩ := digitOf_eq_some_iff.mp hhi
    cases hlo : digitOf cfg lo with
    | none =>
      have hout := digitOf_eq_none_iff.mp hlo
      rw [if_pos (by omega)]
      simp [dpdec, hhi, hlo]
    | some u =>
      obtain ⟨hu, hu9⟩ := digitOf_eq_some_iff.mp hlo
      rw [if_neg (by omega)]
      simp [dpdec, hhi, hlo, ht, hu]

theorem exec_dpenc {n : Nat} (h : n ≤ 99) (s : State) :
    exec (.dpenc n) s = .next (returnValue (.bytes (dpenc s.cfg n)) (beginStep s)) :=
  if_pos ((inRange_iff n).mpr h)

theorem exec_dpenc_refused {n : Nat} (h : 99 < n) (s : State) : exec (.dpenc n) s = .refused .operandRange :=
  if_neg (by simp [(inRange_eq_false n).mpr h])

theorem exec_dpdec (hi lo : Byte) (s : State) : exec (.dpdec hi lo) s =
    .next (returnValue ((dpdec s.cfg hi lo).elim .notDigits .number) (beginStep s)) := by
  simp only [exec, execDpdec]
  cases dpdec s.cfg hi lo <;> rfl

end Machine

/-- Settles O43: DPDEC undoes D (`dpdec_dpenc`), and D undoes DPDEC up to the parity bits (`dpenc_eq_pair_iff`). -/
theorem digitPairsRoundTrip : Obligations.DigitPairsRoundTrip := by
  refine fun cfg hc => ⟨fun n hn => ?_, fun hi lo n h => ?_⟩
  · exact ⟨_, _, rfl, dpdec_dpenc hc hn, parityOk_prot _, parityOk_prot _⟩
  · obtain ⟨hn, hhi, hlo⟩ := dpdec_some h
    exact ⟨hn, dpenc_eq_pair_iff hhi hlo⟩

/-- Settles O42: DPENC returns the protected codes (`digitCode_eq_ofNat`), and DPDEC what `dpdec_eq` says. -/
theorem digitPairOperations : Obligations.DigitPairOperations := by
  refine ⟨fun s n hn => ?_, fun s n hn => exec_dpenc_refused hn s, fun s hi lo => ?_, rfl⟩
  · rw [exec_dpenc hn, dpenc, digitCode_eq_ofNat, digitCode_eq_ofNat]
    rfl
  · rw [exec_dpdec, dpdec_eq, apply_ite (Option.elim · _ _)]
    rfl

/-! Parity (R160 to R163). -/

/-- Settles O44: PAR7 is not inverted (`PAR_INVERT`), and PROT's byte is `joinByte`'s. -/
theorem parityOperations : Obligations.ParityOperations := by
  refine ⟨fun s v => ?_, fun s v => ⟨prot v, joinByte_toNat (par7 v) v, rfl⟩, fun s b => rfl⟩
  rw [← Bool.xor_false (_ ^^ v.getLsbD 6)]
  rfl

namespace Machine

/-- PARITY_OK as a sum over all eight bits, bit 7 among them (R162). -/
theorem parityOk_eq_not_xor (b : Byte) : parityOk b = !(b.getLsbD 0 ^^ b.getLsbD 1 ^^ b.getLsbD 2 ^^ b.getLsbD 3 ^^
    b.getLsbD 4 ^^ b.getLsbD 5 ^^ b.getLsbD 6 ^^ b.getLsbD 7) := by
  have hbeq : ∀ x y : Bool, (x == y) = !(y ^^ x) := by decide
  rw [parityOk, hbeq]
  simp [bit7, par7, low7, PAR_INVERT]

/-- Right parity is an even number of ones (R163 c). -/
theorem parityOk_iff_even_ones (b : Byte) :
    parityOk b = true ↔ ((List.range 8).countP fun i => b.getLsbD i) % 2 = 0 := by
  revert b; decide

/-- The parity of an exclusive or is right exactly when both parities are right or both are wrong. -/
theorem parityOk_xor (a b : Byte) : parityOk (a ^^^ b) = !(parityOk a ^^ parityOk b) := by
  have : Std.Commutative xor := ⟨Bool.xor_comm⟩
  simp only [parityOk_eq_not_xor, BitVec.getLsbD_xor, Bool.not_xor_not]
  ac_rfl

theorem parityOk_twoPow (i : Fin 8) : parityOk (BitVec.twoPow 8 i) = false := by
  revert i; decide

/-- One flipped bit changes the parity (R163 e). -/
theorem parityOk_flip (b : Byte) (i : Fin 8) : parityOk (b ^^^ BitVec.twoPow 8 i) = !parityOk b := by
  rw [parityOk_xor, parityOk_twoPow, Bool.xor_false]

/-- Adding 128 flips bit 7, and so changes the parity. -/
theorem parityOk_ofNat_add_128 (n : Nat) : parityOk (BitVec.ofNat 8 (128 + n)) = !parityOk (BitVec.ofNat 8 n) := by
  have hflip : ∀ b : Byte, 128#8 + b = b ^^^ BitVec.twoPow 8 7 := by decide
  rw [BitVec.ofNat_add, hflip]
  exact parityOk_flip _ 7

/-- Half the bytes have right parity (R163 d): of n and 128 + n exactly one has. -/
theorem countP_parityOk : ((List.range 256).countP fun n => parityOk (BitVec.ofNat 8 n)) = 128 := by
  rw [List.range_add (n := 128) (m := 128), List.countP_append, List.countP_map]
  have hlen := List.length_eq_countP_add_countP (fun n => parityOk (BitVec.ofNat 8 n)) (l := List.range 128)
  simpa [Function.comp_def, parityOk_ofNat_add_128] using hlen.symm

end Machine

/-- Settles O45: the test is even parity, so each flipped bit changes it (`parityOk_flip`) and two leave it. -/
theorem parityDetectsSingleBitErrors : Obligations.ParityDetectsSingleBitErrors := by
  refine ⟨parityOk_prot, prot_low7, parityOk_iff_even_ones, countP_parityOk, parityOk_flip, fun b i j _ => ?_⟩
  rw [parityOk_flip, parityOk_flip, Bool.not_not]

end Sys2Proof

/-! PROOFS. The command encoder's statement (spec/42_command_encoder.md): the bytes of ENC_INIT and ENC_COUNT (R180, R182). -/

namespace Sys2Proof

open Sys2Proof.Machine

namespace Machine

theorem exec_encInit (o t b k : Byte) (s : State) :
    exec (.encInit o t b k) s = .next (returnValue (.bytes (encInit s.cfg o t b k)) (beginStep s)) := rfl

theorem exec_encCount {c1 c2 : Nat} (h1 : c1 ≤ 99) (h2 : c2 ≤ 99) (s : State) :
    exec (.encCount c1 c2) s = .next (returnValue (.bytes (encCount s.cfg c1 c2)) (beginStep s)) :=
  if_pos (by simp [inRange_iff, COUNT_MAX, h1, h2])

/-- The Count command with the spec's values, its fixed pairs written as D(0) twice and D(4) four times (R182). -/
theorem encCount_pairs_of_default {cfg : Config} (hc : cfg = Config.default) (c1 c2 : Nat) : encCount cfg c1 c2 =
    [0x60, 0x03, 0x15, 0xE4] ++ dpenc cfg c1 ++ dpenc cfg c2 ++ dpenc cfg 0 ++ dpenc cfg 0 ++
      dpenc cfg 4 ++ dpenc cfg 4 ++ dpenc cfg 4 ++ dpenc cfg 4 ++ [3, 3, 3, 3] ++ [0x1C] := by
  subst hc
  rfl

end Machine

/-- Settles O38: both micro-operations return their encoder's bytes (`exec_encInit`, `exec_encCount`), which are the named
constants by definition and the spec's literals under the spec's configuration. -/
theorem encodersReturnTheCommand : Obligations.EncodersReturnTheCommand := by
  refine ⟨fun s o t b k => exec_encInit o t b k s, fun s c1 c2 h1 h2 => ?_, fun s o t b k hc => ?_,
    fun s c1 c2 hc h1 h2 => ?_⟩
  · exact exec_encCount h1 h2 s
  · rw [exec_encInit, encInit_of_default hc]
    rfl
  · rw [exec_encCount h1 h2, encCount_pairs_of_default hc]
    rfl

end Sys2Proof

/-! PROOFS. The session's statements (spec/43_session.md): how an outstanding request ends (R208 to R219), FOLD (R220), what the
session ignores (R209), the ISSUE operations (R201 to R205) and TXPOP (R225). -/

namespace Sys2Proof

open Sys2Proof.Machine

/-! CLASSIFY (R211 to R217): the verdict on the frame, and what its resolution writes. -/

namespace Machine

/-- Ending the request as a step of its own (R218): what is saved, the result flags, one Completion, and Idle. -/
theorem resolve_beginStep {s : State} {k : Kind} (hk : s.pendKind = k) (r : Resolution) :
    resolve r (beginStep s) = { saveResult r s with
      sstate := .idle, resValid := true, resOk := okOf r, resErr := errOf r, resKind := k,
      events := [.completion (completionOf k r)], result := none } := by
  subst hk
  cases r <;> rfl

/-- While a request of kind `k` is outstanding, CLASSIFY ends it by the frame's verdict (R211). -/
theorem exec_classify {s : State} {f : Bytes} {k : Kind} {r : Resolution} (hs : s.sstate = .awaitingResponse)
    (hk : s.pendKind = k) (hf : f ≠ []) (hv : verdict s.cfg k f = r) :
    exec (.classify f) s = .next { saveResult r s with
      sstate := .idle, resValid := true, resOk := okOf r, resErr := errOf r, resKind := k,
      events := [.completion (completionOf k r)], result := none } := by
  subst hv
  rw [← resolve_beginStep hk, ← hk]
  exact execClassify_frame hs (List.isEmpty_eq_false_iff.mpr hf)

theorem isDeviceError_eq_false {cfg : Config} {f : Bytes} (h : f.head? ≠ some cfg.errmark) :
    isDeviceError cfg f = false :=
  Bool.eq_false_iff.mpr fun hd => h ((isDeviceError_iff cfg f).mp hd)

/-- A frame that is too short, or has another byte at offset 1 or 2, lacks the expected header (R214). -/
theorem headerMatches_eq_false {cfg : Config} {k : Kind} {f : Bytes}
    (h : f.length < 3 ∨ f[1]? ≠ some (expHeader cfg k).1 ∨ f[2]? ≠ some (expHeader cfg k).2) :
    headerMatches cfg k f = false := by
  rw [Bool.eq_false_iff, ne_eq, headerMatches_iff]
  rintro ⟨h1, h2⟩
  obtain h | h | h := h
  · rw [List.getElem?_eq_none (by omega)] at h2
    cases h2
  · exact h h1
  · exact h h2

theorem ne_nil_of_getElem?_eq_some {f : Bytes} {off : Nat} {b : Byte} (h : f[off]? = some b) : f ≠ [] :=
  List.ne_nil_of_mem (List.mem_of_getElem? h)

end Machine

/-- Settles O12: the marker alone makes the verdict (`verdict_deviceError`). -/
theorem classifyDeviceError : Obligations.ClassifyDeviceError := by
  intro s f hs hm
  have hf : f ≠ [] := by
    rintro rfl
    cases hm
  exact exec_classify hs rfl hf (verdict_deviceError ((isDeviceError_iff s.cfg f).mpr hm))

/-- Settles O13: no marker, and each of the three conditions leaves the frame without the expected header. -/
theorem classifyHeaderMismatch : Obligations.ClassifyHeaderMismatch :=
  fun _ _ hs hf hm hh =>
    exec_classify hs rfl hf (verdict_headerMismatch (isDeviceError_eq_false hm) (headerMatches_eq_false hh))

/-- Settles O14: with the Initialize header the verdict is success, whatever the body. -/
theorem classifyInitializeSuccess : Obligations.ClassifyInitializeSuccess := by
  intro s f hs hk hm _ h1 h2
  have hheader : headerMatches s.cfg .kInit f = true := (headerMatches_iff s.cfg .kInit f).mpr ⟨h1, h2⟩
  exact exec_classify hs hk (ne_nil_of_getElem?_eq_some h1) (verdict_init (isDeviceError_eq_false hm) hheader)

namespace Machine

/-- With the Count header and no marker, CLASSIFY's verdict is the decoder's answer (R216, R217). -/
theorem verdict_of_countHeader {cfg : Config} {f : Bytes} (hm : f.head? ≠ some cfg.errmark)
    (h1 : f[1]? = some cfg.countRspHdr.1) (h2 : f[2]? = some cfg.countRspHdr.2) :
    verdict cfg .kCount f = (decCount cfg f).elim .formatFail .countOk := by
  rw [verdict_count (isDeviceError_eq_false hm) ((headerMatches_iff cfg .kCount f).mpr ⟨h1, h2⟩)]
  cases decCount cfg f <;> rfl

end Machine

/-- Settles O15: the verdict carries the decoder's numbers, and each fits its register (`decCount_le`, `count_toNat`). -/
theorem classifyCountSuccess : Obligations.ClassifyCountSuccess := by
  intro s f c hs hk hm h1 h2 hdec
  have hv := verdict_of_countHeader hm h1 h2
  rw [hdec] at hv
  obtain ⟨ha1, ha2, hr1, hr2⟩ := decCount_le hdec
  exact ⟨_, exec_classify hs hk (ne_nil_of_getElem?_eq_some h1) hv, count_toNat ha1, count_toNat ha2, count_toNat hr1,
    count_toNat hr2, rfl⟩

/-- Settles O16: without a decoded response the verdict is E_FORMAT. -/
theorem classifyFormatFailure : Obligations.ClassifyFormatFailure := by
  intro s f hs hk hm h1 h2 hdec
  have hv := verdict_of_countHeader hm h1 h2
  rw [hdec] at hv
  exact exec_classify hs hk (ne_nil_of_getElem?_eq_some h1) hv

/-- Settles O17: the two tests of CLASSIFY, the request before the frame. -/
theorem classifyRunsOnlyOnAFrameOfARequest : Obligations.ClassifyRunsOnlyOnAFrameOfARequest :=
  ⟨fun _ _ hs => if_neg hs, fun _ hs => if_pos hs⟩

/-! The session on the codec's events (R208, R209, R219). -/

namespace Machine

/-- Statuses LS_OK change nothing (R219). -/
@[simp] theorem consumeEvents_replicate_ok (n : Nat) (s : State) :
    consumeEvents (List.replicate n (.linkStatus .ok)) s = s := by
  induction n with
  | zero => rfl
  | succ n ih => rw [List.replicate_succ, consumeEvents_cons, consumeEvent_ok, ih]

/-- After statuses LS_OK, an event that ends the request decides, and the rest is ignored (R208, R209). -/
theorem consumeEvents_ok_then {s : State} {ev : CodecEvent} (n : Nat) (rest : List CodecEvent)
    (h : (consumeEvent s ev).sstate ≠ .awaitingResponse) :
    consumeEvents (List.replicate n (.linkStatus .ok) ++ ev :: rest) s = consumeEvent s ev := by
  rw [consumeEvents_append, consumeEvents_replicate_ok, consumeEvents_cons, consumeEvents_ignored h]

/-- SESSION_CONSUME, when the first event other than LS_OK ends the request by the resolution `r` (R208). -/
theorem exec_sessionConsume_resolves {s : State} {ev : CodecEvent} {r : Resolution} (n : Nat) (rest : List CodecEvent)
    (h : consumeEvent (beginStep s) ev = resolve r (beginStep s)) :
    exec (.sessionConsume (List.replicate n (.linkStatus .ok) ++ ev :: rest)) s = .next (resolve r (beginStep s)) := by
  rw [← h]
  exact congrArg Host.Outcome.next (consumeEvents_ok_then n rest (by simp [h]))

theorem exec_linkErrorCompletion {s : State} (hs : s.sstate = .awaitingResponse) (e : LinkErr) :
    exec (.linkErrorCompletion e) s = .next (resolve (.linkError e) (beginStep s)) :=
  if_pos hs

end Machine

/-- Settles O18: LS_OK is skipped, and the event that ends the request does what its own operation does
(`exec_sessionConsume_resolves`). -/
theorem sessionConsumesEventsInOrder : Obligations.SessionConsumesEventsInOrder := by
  refine ⟨fun s evs hs => ?_, fun s n => ?_, fun s n e rest hs => ?_, fun s n f rest hs hf => ?_⟩
  · exact congrArg Host.Outcome.next (consumeEvents_ignored (s := beginStep s) hs evs)
  · exact congrArg Host.Outcome.next (consumeEvents_replicate_ok n (beginStep s))
  · exact ⟨_, exec_linkErrorCompletion hs e, exec_sessionConsume_resolves n rest (consumeEvent_err (s := beginStep s) hs e)⟩
  · exact ⟨_, execClassify_frame hs (List.isEmpty_eq_false_iff.mpr hf),
      exec_sessionConsume_resolves n rest (consumeEvent_frame (s := beginStep s) hs f)⟩

/-- Settles O21: the resolution of each link error, as a step of its own. -/
theorem linkErrorFailsTheRequest : Obligations.LinkErrorFailsTheRequest :=
  fun _ hs => ⟨exec_linkErrorCompletion hs .parity, exec_linkErrorCompletion hs .overflow⟩

/-! FEED with no request outstanding (R209). -/

namespace Machine

/-- With no request outstanding FEED writes the codec's registers and the events alone, in each of its cases (R131, R209). -/
theorem feedByte_writes_codec_only {s : State} (hs : s.sstate ≠ .awaitingResponse) (b : Byte) :
    feedByte b s = { s with
      rxMode := (feedByte b s).rxMode, rxBuf := (feedByte b s).rxBuf, lstat := (feedByte b s).lstat,
      events := (feedByte b s).events } := by
  obtain ⟨-, h⟩ | ⟨-, -, h⟩ | ⟨-, -, e, h⟩ | ⟨-, -, -, -, h⟩ := feedByte_cases b s
  · rw [h]
  · rw [h, consumeEvent_ignored (by exact hs)]
  · rw [h, consumeEvent_ignored (by exact hs)]
  · rw [h]

/-- With no request outstanding FEED completes nothing (R209). -/
theorem completions_feedByte_ignored {s : State} (hs : s.sstate ≠ .awaitingResponse) (b : Byte) :
    completions (feedByte b s).events = completions s.events := by
  obtain h | ⟨hw, -⟩ := feedByte_endsAtMostOnce b s
  · obtain ⟨-, -, -, hcs⟩ := sessionView_eq_iff.mp h
    exact hcs
  · exact absurd hw hs

end Machine

/-- Settles O9: the codec's part is all that FEED does (`feedByte_writes_codec_only`, `completions_feedByte_ignored`). -/
theorem feedWithoutRequestIsIgnoredByTheSession : Obligations.FeedWithoutRequestIsIgnoredByTheSession :=
  fun s b hs => ⟨feedByte b (beginStep s), rfl, completions_feedByte_ignored (s := beginStep s) hs b,
    feedByte_writes_codec_only (s := beginStep s) hs b⟩

/-! COMPLETE, FORMAT_FAIL_COMPLETION and FOLD on their own (R217, R218, R220). -/

/-- Settles O19: outside Idle, an outcome of the outstanding kind runs `completeRequest`. -/
theorem completeEndsTheRequestOnce : Obligations.CompleteEndsTheRequestOnce :=
  ⟨fun _ _ hs hk => (if_neg hs).trans (if_pos hk), fun _ _ hs => if_pos hs⟩

/-- Settles O20: outside AwaitingResponse FOLD is `foldIdle`. -/
theorem foldReturnsToIdle : Obligations.FoldReturnsToIdle :=
  ⟨fun _ hs => if_neg hs, fun _ hs => if_pos hs⟩

/-- Settles O22: outside Idle, with a Count outstanding, the request is resolved with E_FORMAT. -/
theorem formatFailCompletesACount : Obligations.FormatFailCompletesACount := by
  intro s hs hk
  have hexec : exec .formatFailCompletion s = .next (resolve .formatFail (beginStep s)) :=
    (if_neg hs).trans (if_pos hk)
  exact hexec.trans (congrArg Host.Outcome.next (resolve_beginStep hk .formatFail))

/-! The ISSUE operations (R201 to R205). -/

namespace Machine

/-- An accepted ISSUE as a step of its own (R201, R202): it arms the session and enqueues TX_COPIES copies. -/
theorem issue_beginStep_idle {s : State} (hs : s.sstate = .idle) (k : Kind) (cmd : Bytes) :
    issue k cmd (beginStep s) = { s with
      sstate := .awaitingResponse, pendKind := k, protSel := selOf k,
      txq := s.txq ++ (List.replicate s.cfg.txCopies cmd).flatten,
      events := [.issueOutcome .accepted], result := none } :=
  issue_idle (s := beginStep s) hs k cmd

/-- With the spec's configuration the command is enqueued twice (R203). -/
theorem issue_beginStep_default {s : State} (hc : s.cfg = Config.default) (hs : s.sstate = .idle) (k : Kind)
    (cmd : Bytes) :
    issue k cmd (beginStep s) = { s with
      sstate := .awaitingResponse, pendKind := k, protSel := selOf k, txq := s.txq ++ cmd ++ cmd,
      events := [.issueOutcome .accepted], result := none } := by
  have htwo : (List.replicate s.cfg.txCopies cmd).flatten = cmd ++ cmd := copies_eq (by rw [hc]; rfl) cmd
  rw [issue_beginStep_idle hs, htwo, List.append_assoc]

/-- A refused ISSUE as a step of its own (R204). -/
theorem issue_beginStep_busy {s : State} (hs : s.sstate ≠ .idle) (k : Kind) (cmd : Bytes) :
    issue k cmd (beginStep s) = { s with events := [.issueOutcome .busy], result := none } :=
  issue_busy (s := beginStep s) hs k cmd

theorem exec_issueInit (o t b k : Byte) (s : State) :
    exec (.issueInit o t b k) s = .next (issue .kInit (encInit s.cfg o t b k) (beginStep s)) := rfl

/-- The operands of ISSUE_COUNT are in range when both are at most 99 (R205). -/
theorem inRange_and_iff {c1 c2 : Nat} : (inRange c1 && inRange c2) = true ↔ c1 ≤ 99 ∧ c2 ≤ 99 := by
  rw [Bool.and_eq_true, inRange_iff, inRange_iff, COUNT_MAX]

theorem not_inRange_and {c1 c2 : Nat} (h : 99 < c1 ∨ 99 < c2) : ¬ (inRange c1 && inRange c2) = true := by
  rw [inRange_and_iff]
  omega

theorem exec_issueCount {c1 c2 : Nat} (h1 : c1 ≤ 99) (h2 : c2 ≤ 99) (s : State) :
    exec (.issueCount c1 c2) s = .next (issue .kCount (encCount s.cfg c1 c2) (beginStep s)) :=
  if_pos (inRange_and_iff.mpr ⟨h1, h2⟩)

/-- hc_op 2 is ISSUE_COUNT of its first two lanes when both are in range (R118). -/
theorem decode_issueCount (ctx : Ctx) {a b : Byte} (c d : Byte) (ha : a.toNat ≤ 99) (hb : b.toNat ≤ 99) :
    decode ctx (.hostCommand 2 a b c d) = .ok (.issueCount a.toNat b.toNat) :=
  if_pos (inRange_and_iff.mpr ⟨ha, hb⟩)

/-- hc_op 2 with a lane above 99 is no operation (R205). -/
theorem decode_issueCount_operandRange (ctx : Ctx) {a b : Byte} (c d : Byte) (h : 99 < a.toNat ∨ 99 < b.toNat) :
    decode ctx (.hostCommand 2 a b c d) = .error .operandRange :=
  if_neg (not_inRange_and h)

end Machine

/-- Settles O32: the command is ENC_INIT's, whose bytes under the spec's configuration are `encInit_of_default`'s. -/
theorem issueInitArmsAndTransmitsTwice : Obligations.IssueInitArmsAndTransmitsTwice := by
  refine ⟨fun ctx o t b k => rfl, fun s o t b k hs => ?_, fun s o t b k hc hs => ?_, fun s o t b k hs => ?_⟩
  · rw [exec_issueInit, issue_beginStep_idle hs]
    rfl
  · rw [exec_issueInit, issue_beginStep_default hc hs, encInit_of_default hc]
    rfl
  · rw [exec_issueInit, issue_beginStep_busy hs]

/-- Settles O33: with operands in range the command is ENC_COUNT's. -/
theorem issueCountArmsAndTransmitsTwice : Obligations.IssueCountArmsAndTransmitsTwice := by
  refine ⟨fun ctx a b c d ha hb => decode_issueCount ctx c d ha hb, fun s c1 c2 hs h1 h2 => ?_,
    fun s c1 c2 hc hs h1 h2 => ?_, fun s c1 c2 hs h1 h2 => ?_⟩
  · rw [exec_issueCount h1 h2, issue_beginStep_idle hs]
    rfl
  · rw [exec_issueCount h1 h2, issue_beginStep_default hc hs]
    rfl
  · rw [exec_issueCount h1 h2, issue_beginStep_busy hs]

/-- Settles O34: both ISSUE operations, and BUSY itself, are `rejectBusy`. -/
theorem issueWhileNotIdleIsBusy : Obligations.IssueWhileNotIdleIsBusy := by
  refine fun s hs => ⟨fun o t b k => ?_, fun c1 c2 h1 h2 => ?_, if_pos ((busyFlag_iff s).mpr hs)⟩
  · rw [exec_issueInit, issue_beginStep_busy hs]
  · rw [exec_issueCount h1 h2, issue_beginStep_busy hs]

/-- Settles O35: the range is tested before anything else, in the operation and in the decoder. -/
theorem issueCountAboveNinetyNineIsRefused : Obligations.IssueCountAboveNinetyNineIsRefused := by
  refine ⟨fun s c1 c2 h => if_neg (not_inRange_and h), fun s a b c d rest hin h => ?_⟩
  refine step_of_fetch_rejected ?_
  rw [fetch_cons hin, decode_issueCount_operandRange (ctxOf s) c d h, select_error (e := .operandRange) nofun]

/-! TXPOP (R225). -/

/-- Settles O37: the two cases of TXQ. -/
theorem txpopTakesTheHead : Obligations.TxpopTakesTheHead := by
  refine ⟨fun s b rest hq => ?_, fun s hq => ?_⟩
  · simp only [exec, execTxpop, hq]
    rfl
  · simp only [exec, execTxpop, hq]

end Sys2Proof

/-! PROOFS. The response decoder's statements (spec/44_response_decoder.md): the precondition of every decode (R240), DEC_INIT
(R241) and DEC_COUNT (R242 to R245). -/

namespace Sys2Proof

open Sys2Proof.Machine

namespace Machine

/-- The precondition of every decode, read off the state and the frame (R240). -/
theorem mayDecode_iff (k : Kind) (f : Bytes) (s : State) : mayDecode k f s = true ↔
    s.sstate ≠ .idle ∧ s.pendKind = k ∧ f.head? ≠ some s.cfg.errmark ∧
      f[1]? = some (expHeader s.cfg k).1 ∧ f[2]? = some (expHeader s.cfg k).2 := by
  rw [mayDecode, decodable, Bool.and_eq_true, Bool.and_eq_true, Bool.and_eq_true, busyFlag_iff, beq_iff_eq,
    Bool.not_eq_true', ← Bool.not_eq_true, isDeviceError_iff, headerMatches_iff, and_assoc]

/-- The five grounds on which a decode is refused (R240). -/
theorem not_mayDecode {k : Kind} {f : Bytes} {s : State}
    (h : s.sstate = .idle ∨ s.pendKind ≠ k ∨ f.head? = some s.cfg.errmark ∨
      f[1]? ≠ some (expHeader s.cfg k).1 ∨ f[2]? ≠ some (expHeader s.cfg k).2) : ¬ mayDecode k f s = true := by
  rw [mayDecode_iff]
  rintro ⟨hs, hk, hm, h1, h2⟩
  obtain h | h | h | h | h := h <;> contradiction

/-- Under its precondition DEC_COUNT returns the decoder's answer, and changes nothing (R242). -/
theorem exec_decCount {f : Bytes} {s : State} (h : mayDecode .kCount f s = true) : exec (.decCount f) s =
    .next (returnValue ((decCount s.cfg f).elim .formatFail .counts) (beginStep s)) := by
  simp only [exec, execDecCount, if_pos h]
  cases decCount s.cfg f <;> rfl

/-- The pair at an offset is DPDEC of the two bytes that stand there (R242). -/
theorem digitsAt_eq {cfg : Config} {f : Bytes} {off : Nat} {hi lo : Byte} (hhi : f[cfg.fieldBase + off]? = some hi)
    (hlo : f[cfg.fieldBase + off + 1]? = some lo) : digitsAt cfg f off = dpdec cfg hi lo := by
  rw [digitsAt, hhi, hlo]

/-- The offsets of the four digit pairs, in the order of the counts they hold (R242, R244). -/
def pairOffset (cfg : Config) (i : Fin 4) : Nat := [cfg.offAcc1, cfg.offAcc2, cfg.offRej1, cfg.offRej2].getD i 0

/-- DEC_COUNT succeeds exactly on a frame long enough whose four pairs all decode, and returns their numbers (R242 to R245). -/
theorem decCount_eq_some_iff {cfg : Config} {f : Bytes} {c : Counts} : decCount cfg f = some c ↔
    cfg.countRspMin ≤ f.length ∧ digitsAt cfg f cfg.offAcc1 = some c.acc1 ∧ digitsAt cfg f cfg.offAcc2 = some c.acc2 ∧
      digitsAt cfg f cfg.offRej1 = some c.rej1 ∧ digitsAt cfg f cfg.offRej2 = some c.rej2 := by
  rw [decCount]
  split
  · next hshort => exact ⟨nofun, fun ⟨hlen, _⟩ => absurd hlen (by omega)⟩
  · next hlong =>
    have hlen : cfg.countRspMin ≤ f.length := by omega
    split
    · next ha1 ha2 hr1 hr2 =>
      cases c
      simp [hlen, ha1, ha2, hr1, hr2]
    · next hnone =>
      exact ⟨nofun, fun ⟨_, ha1, ha2, hr1, hr2⟩ => (hnone _ _ _ _ ha1 ha2 hr1 hr2).elim⟩

/-- DEC_COUNT is FORMAT_FAIL on a frame too short, or with one pair that does not decode (R243, R245). -/
theorem decCount_eq_none {cfg : Config} {f : Bytes}
    (h : f.length < cfg.countRspMin ∨ ∃ i, digitsAt cfg f (pairOffset cfg i) = none) : decCount cfg f = none := by
  refine Option.eq_none_iff_forall_ne_some.mpr fun c hc => ?_
  obtain ⟨hlen, ha1, ha2, hr1, hr2⟩ := decCount_eq_some_iff.mp hc
  obtain h | ⟨i, hi⟩ := h
  · omega
  · have hpairs : ∀ i, digitsAt cfg f (pairOffset cfg i) ≠ none := by
      simp [Fin.forall_fin_succ, pairOffset, ha1, ha2, hr1, hr2]
    exact hpairs i hi

end Machine

/-- Settles O40: DEC_INIT tests the precondition and reads nothing more (`mayDecode_iff`, `not_mayDecode`). -/
theorem decodeInitializeReadsNothing : Obligations.DecodeInitializeReadsNothing :=
  ⟨fun s f hs hk hm h1 h2 => if_pos ((mayDecode_iff .kInit f s).mpr ⟨hs, hk, hm, h1, h2⟩),
    fun _ _ h => if_neg (not_mayDecode h)⟩

/-- Settles O41: DEC_COUNT returns the decoder's answer (`exec_decCount`), which is the four pairs' numbers or FORMAT_FAIL
(`decCount_eq_some_iff`, `decCount_eq_none`). -/
theorem decodeCountReadsFourDigitPairs : Obligations.DecodeCountReadsFourDigitPairs := by
  refine ⟨fun s f hs hk hm h1 h2 => ?_, rfl, fun _ _ h => if_neg (not_mayDecode h)⟩
  have hexec := exec_decCount ((mayDecode_iff .kCount f s).mpr ⟨hs, hk, hm, h1, h2⟩)
  refine ⟨fun x y n hlen hpairs => ?_, fun hfail => ?_⟩
  · have hnum : ∀ i, digitsAt s.cfg f (pairOffset s.cfg i) = some (n i) := by
      intro i
      obtain ⟨hx, hy, hn⟩ := hpairs i
      exact (digitsAt_eq hx hy).trans hn
    have hdec : decCount s.cfg f = some ⟨n 0, n 1, n 2, n 3⟩ :=
      decCount_eq_some_iff.mpr ⟨hlen, hnum 0, hnum 1, hnum 2, hnum 3⟩
    rw [hexec, hdec]
    rfl
  · have hdec : decCount s.cfg f = none :=
      decCount_eq_none (hfail.imp_right fun ⟨i, _, _, hx, hy, hn⟩ => ⟨i, (digitsAt_eq hx hy).trans hn⟩)
    rw [hexec, hdec]
    rfl

end Sys2Proof

/-! PROOFS. The reset statement (spec/70_reset_and_hazards.md): RESET as an operation, in every state (R320, R322). -/

namespace Sys2Proof

open Sys2Proof.Machine

namespace Machine

/-- RESET has no guard: it answers in every state (R320). -/
theorem exec_reset (s : State) : exec .reset s = .next (resetBlock (beginStep s)) := rfl

@[simp] theorem resetBlock_rxLen (s : State) : (resetBlock s).rxLen = 0 := rfl

@[simp] theorem resetBlock_rawLen (s : State) : (resetBlock s).rawLen = 0 := rfl

end Machine

/-- Settles O2: RESET is the start of a step, which empties the event list, then `resetBlock` (`exec_reset`), which emits nothing
and whose fields the `resetBlock_` lemmas give. -/
theorem resetOperationClearsTheBlock : Obligations.ResetOperationClearsTheBlock := by
  intro s
  refine ⟨resetBlock (beginStep s), exec_reset s, ?hevents, ?hregisters⟩
  case hevents => rw [resetBlock_events, beginStep_events]
  case hregisters => simp

end Sys2Proof
